-- ==== Sys2Proof/Word.lean ====
section
/-! DEFINITION. The word types of the part: bytes of frames and of the configuration memory, the 32-bit
local time in half-ticks (00_scope, Units) and the 31-bit sample index (R1). -/
namespace Sys2Proof

/-- One byte of a frame or of the configuration memory. -/
abbrev Byte := BitVec 8

/-- Local time: a 32-bit count of half-ticks that wraps (00_scope, Units). -/
abbrev LocalTime := BitVec 32

/-- Sample index, counted modulo 2^31 (R1). -/
abbrev SampleIndex := BitVec 31

end Sys2Proof
end

