-- ==== Sys2Proof/Config.lean ====
section
/-! DEFINITION. The constants the manual fixes for every station, and the one free value of the model:
the order in which events of one instant are taken where the manual says "either may be taken first". -/
namespace Sys2Proof.Config

/-- Half-ticks in one second (00_scope, Terms: a half-tick is 1/16384 s). -/
abbrev halfTicksPerSecond : Nat := 16384

/-- Limit of a pulse area (R11). -/
abbrev areaMax : Nat := 16777215

/-- Limit of each strip stage, in sixteenths of a kilogram (R36 to R38). -/
abbrev stageMax : Nat := 1048575

/-- Limit of a half load, in kilograms (R39). -/
abbrev halfLoadMax : Nat := 65534

/-- Limit of an axle load, in kilograms (R42). -/
abbrev axleLoadMax : Nat := 65535

/-- Limit of every event counter (R170). -/
abbrev counterMax : Nat := 65535

/-- The code of an absent half in a TRANSFER (R103). -/
abbrev absentLoad : Nat := 65535

/-- Capacities of the lists and queues: pending leads and orphan trails (R19), axles of a vehicle (R79),
edge axles (R91), remote notices of a side (R96), triggers (R148), receive queue (R180), transmit queue
(R187), frame buffer (R178). -/
abbrev leadCapacity : Nat := 8
abbrev orphanCapacity : Nat := 4
abbrev axleCapacity : Nat := 12
abbrev edgeCapacity : Nat := 4
abbrev remoteCapacity : Nat := 8
abbrev triggerCapacity : Nat := 4
abbrev receiveCapacity : Nat := 8
abbrev transmitCapacity : Nat := 12
abbrev bufferCapacity : Nat := 100

/-- FREE VALUE (notes/assumptions/2): the order, as the code of a permutation, in which events of one
instant are taken where the manual leaves the order open. It is applied to `State.freeCount`. It has no
body, so no proof can rest on a value of it. -/
opaque freeOrder : Nat → Nat

end Sys2Proof.Config
end

