-- ==== Sys2Proof/Syntax.lean ====
section
/-! DEFINITION. The commands of the part: one constructor of `Instr` per row of spec/opcode_table.json, with
the operands that the outside brings to that step (converter codes, strap levels, bytes read from the
configuration memory, a received character). What a step finds inside the part (the frame at the head of
the receive queue, the lists, the due times) is no operand: it stands in State. -/
namespace Sys2Proof

/-- A half of the lane, and with it the side of the lane a half faces (00_scope, Terms). -/
inductive Half where
  | left | right
  deriving DecidableEq, Repr

namespace Half

/-- The half on the other side. -/
def other : Half → Half
  | .left => .right
  | .right => .left

end Half

/-- The two places a vehicle can stand in (R70). -/
inductive Slot where
  | openSlot | closingSlot
  deriving DecidableEq, Repr

/-- The levels of the six strap pins, high as true (R159): the four station number straps with their
weights 8, 4, 2, 1 and the first and the second rate strap. -/
structure Straps where
  station8 : Bool
  station4 : Bool
  station2 : Bool
  station1 : Bool
  rate1 : Bool
  rate2 : Bool
  deriving DecidableEq, Repr

/-- The three samples of one bit of a character, recessive as true (R172). -/
structure BitSamples where
  first : Bool
  second : Bool
  third : Bool
  deriving DecidableEq, Repr

/-- The eleven bits of a character as they are sampled, the data bits most significant first (R173). -/
structure LineCharacter where
  start : BitSamples
  data : Vector BitSamples 8
  mark : BitSamples
  stop : BitSamples
  deriving DecidableEq, Repr

/-- The commands: one constructor per row of the opcode table, in the table's order. -/
inductive Instr where
  /-- POWER_UP (R159), with the strap levels read at that instant. -/
  | powerUp (straps : Straps)
  /-- RESET_PIN (R159): the pin has been low for `lowMicros` microseconds; it is low still, or (`release`) it is
  released now, with the strap levels read at that instant. -/
  | resetPin (lowMicros : Nat) (release : Option Straps)
  /-- MEMORY_READY (R160): ready is seen; `image` are the bytes of sector 0 from address 0, `correction` the
  first 36 bytes of sector 1, as the port reads them. -/
  | memoryReady (image correction : List Byte)
  /-- NO_MEMORY (R160). -/
  | noMemory
  /-- STATUS_DUE (R169). -/
  | statusDue
  /-- CLEAR_LATCH (R155): the head of the receive queue is dispatched. -/
  | clearLatch
  /-- RESTART (R167): the head of the receive queue is dispatched; `straps` are the strap levels read then. -/
  | restart (straps : Straps)
  /-- STATUS_NOW (R166): the head of the receive queue is dispatched. -/
  | statusNow
  /-- COMMAND_CODE_UNKNOWN (R166): the head of the receive queue is dispatched. -/
  | commandCodeUnknown
  /-- SAMPLE (R1): the converter codes of the four channels, read as signed, and the level of the loop input. -/
  | sample (ll lr tl tr : BitVec 16) (loopHigh : Bool)
  /-- LEAD_EXPIRY_BY_AGE (R22), on one half. -/
  | leadExpiryByAge (half : Half)
  /-- ORPHAN_EXPIRY_BY_AGE (R22), on one half. -/
  | orphanExpiryByAge (half : Half)
  /-- HALF_RELEASE (R28), of the half-axle in the slot of one half. -/
  | halfRelease (half : Half)
  /-- LOOP_TRANSITION (R75). -/
  | loopTransition
  /-- GAP_TIMER (R82), of the open or of the closing vehicle. -/
  | gapTimer (slot : Slot)
  /-- TRIGGER_DUE (R151). -/
  | triggerDue
  /-- PULSE_END (R150). -/
  | pulseEnd
  /-- GAP_END (R151). -/
  | gapEnd
  /-- EDGE_WAIT_EXPIRY (R91). -/
  | edgeWaitExpiry
  /-- REMOTE_NOTICE_EXPIRY (R96), in the remote list of one side. -/
  | remoteNoticeExpiry (side : Half)
  /-- YIELD_HOLD_EXPIRY (R108), of the open or of the closing vehicle. -/
  | yieldHoldExpiry (slot : Slot)
  /-- HALF_AXLE (R95): the head of the receive queue is dispatched. -/
  | halfAxle
  /-- TRANSFER (R105): the head of the receive queue is dispatched. -/
  | transfer
  /-- YIELD_CLOSED (R107): the head of the receive queue is dispatched. -/
  | yieldClosed
  /-- TEMPERATURE (R61): the head of the receive queue is dispatched. -/
  | temperature
  /-- ANNOUNCE (R111): the head of the receive queue is dispatched. -/
  | announce
  /-- VEHICLE_STATUS_DROPPED (R181): the head of the receive queue is dispatched. -/
  | vehicleStatusDropped
  /-- TEMPERATURE_SECOND (R50), with the code of the probe input. -/
  | temperatureSecond (code : BitVec 16)
  /-- ERASE_READY (R137). -/
  | eraseReady
  /-- ERASE_TIMEOUT (R137). -/
  | eraseTimeout
  /-- PROGRAM_READY (R138). -/
  | programReady
  /-- PROGRAM_TIMEOUT (R138). -/
  | programTimeout
  /-- VERIFY (R139), with the 36 bytes read back from sector 1. -/
  | verify (readBack : List Byte)
  /-- LINE_BUSY (R174). -/
  | lineBusy
  /-- LINE_IDLE (R174). -/
  | lineIdle
  /-- BREAK (R174). -/
  | lineBreak
  /-- LINE_FAULT (R174). -/
  | lineFault
  /-- LINE_FAULT_END (R174). -/
  | lineFaultEnd
  /-- RECEIVE_CHARACTER (R178): the samples of the character's bits (R172), and how many half-ticks ago the start
  bit's edge was. -/
  | receiveCharacter (char : LineCharacter) (edgeAge : Nat)
  /-- TRANSMIT_ATTEMPT (R182): at an idle, or (`onEdge`) on a falling edge after at least 11 recessive bit times. -/
  | transmitAttempt (onEdge : Bool)
  /-- ARBITRATION_LOSS (R183). -/
  | arbitrationLoss
  /-- BIT_ERROR (R184). -/
  | bitError
  /-- BREAKING_END (R184). -/
  | breakingEnd
  /-- FRAME_SENT_WHOLE (R185), with the noise mark of the frame's read-back. -/
  | frameSentWhole (noise : Bool)
  /-- COMMAND_NOT_ADDRESSED (R166): the head of the receive queue is dispatched. -/
  | commandNotAddressed
  /-- BREAK_LINE_RELEASED (R174). -/
  | breakLineReleased
  /-- ARBITRATION_WON (R183). -/
  | arbitrationWon
  deriving DecidableEq, Repr

end Sys2Proof
end

