-- ==== Sys2Proof/WellFormed.lean ====
section
/-! DEFINITION. Well-formed commands: operands the part can meet. Every command runs whether or not it is
well formed; the checks say which operand values belong to the hardware. -/
namespace Sys2Proof

/-- The size of a sector of the configuration memory (08, The correction record). -/
def sectorSize : Nat := 4096

/-- The size of the correction record (R135). -/
def correctionSize : Nat := 36

namespace Instr

/-- The operands lie in the ranges the part can meet: whole reads of the configuration memory (R135, R139,
R161), and a start bit edge at most two half-ticks old, a character being 11 bit times of 1 to 8 µs (R173). -/
def wellFormed : Instr → Bool
  | .memoryReady image correction => image.length == sectorSize && correction.length == correctionSize
  | .verify readBack => readBack.length == correctionSize
  | .receiveCharacter _ edgeAge => edgeAge ≤ 2
  | .powerUp _ | .resetPin _ _ | .noMemory | .statusDue | .clearLatch | .restart _ | .statusNow
  | .commandCodeUnknown | .sample _ _ _ _ _ | .leadExpiryByAge _ | .orphanExpiryByAge _ | .halfRelease _
  | .loopTransition | .gapTimer _ | .triggerDue | .pulseEnd | .gapEnd | .edgeWaitExpiry
  | .remoteNoticeExpiry _ | .yieldHoldExpiry _ | .halfAxle | .transfer | .yieldClosed | .temperature
  | .announce | .vehicleStatusDropped | .temperatureSecond _ | .eraseReady | .eraseTimeout
  | .programReady | .programTimeout | .lineBusy | .lineIdle | .lineBreak | .lineFault | .lineFaultEnd
  | .transmitAttempt _ | .arbitrationLoss | .bitError | .breakingEnd | .frameSentWhole _
  | .commandNotAddressed | .breakLineReleased | .arbitrationWon => true

end Instr
end Sys2Proof
end

