-- ==== Sys2Proof/Decode.lean ====
section
/-! DEFINITION. `decodeTableWord` over the rows of the opcode table that give bits. No row of this part's table
gives any: its commands are events, register reads of no bus and frames of the site link, whose byte layouts
are read by Machine/Operands.lean. So no word spells a command (notes/assumptions/24). -/
namespace Sys2Proof

/-- The command that a word spells by the table's bits: the table gives no row any bits. -/
def decodeTableWord (_nbits _w : Nat) : Option Instr := none

end Sys2Proof
end

