-- ==== Sys2Proof/Machine/State.lean ====
section
/-! DEFINITION. The state of the station as plain data: every list, queue, counter, mode, latch and mark the manual
gives the part, block by block, the queue of commands that wait, and the state after reset. -/
namespace Sys2Proof.Machine

/-! ## Channels and halves -/

/-- The four channels: strip (lead, trail) and half (left, right) (00_scope, Terms). -/
inductive Chan where
  | ll | lr | tl | tr
  deriving DecidableEq, Repr

/-- One value per channel. -/
structure PerChannel (α : Type) where
  ll : α
  lr : α
  tl : α
  tr : α
  deriving DecidableEq, Repr

namespace PerChannel

/-- The value of one channel. -/
def get {α : Type} (p : PerChannel α) : Chan → α
  | .ll => p.ll
  | .lr => p.lr
  | .tl => p.tl
  | .tr => p.tr

end PerChannel

/-- One value per half, or per side of the lane. -/
structure PerHalf (α : Type) where
  left : α
  right : α
  deriving DecidableEq, Repr

namespace PerHalf

/-- The value of one half. -/
def get {α : Type} (p : PerHalf α) : Half → α
  | .left => p.left
  | .right => p.right

/-- The same values but for one half. -/
def set {α : Type} (p : PerHalf α) (h : Half) (a : α) : PerHalf α :=
  match h with
  | .left => { p with left := a }
  | .right => { p with right := a }

end PerHalf

/-- The detector states (01, Channel context). -/
inductive Detector where
  | idle | qualify | pulse | tail | held
  deriving DecidableEq, Repr

/-- The context of one channel (01, Channel context). -/
structure Channel where
  detector : Detector
  /-- 256 times the zero level in LSB; none while unloaded (R4). -/
  baseline : Option Int
  count : Nat
  area : Nat
  tailSum : Nat
  start : Option SampleIndex
  tentativeEnd : Option SampleIndex
  saturated : Bool
  deriving DecidableEq, Repr

/-- The channel after every reset (R15). -/
def Channel.reset : Channel :=
  { detector := .idle, baseline := none, count := 0, area := 0, tailSum := 0, start := none,
    tentativeEnd := none, saturated := false }

/-- A pulse record (R10). -/
structure Pulse where
  chan : Chan
  time : LocalTime
  area : Nat
  saturated : Bool
  deriving DecidableEq, Repr

/-! ## Axle pairing -/

/-- The direction of travel (R18). -/
inductive Direction where
  | forward | reverse
  deriving DecidableEq, Repr

/-- A half-axle (R25). -/
structure HalfAxle where
  half : Half
  direction : Direction
  leadTime : LocalTime
  trailTime : LocalTime
  interval : Nat
  speed : Nat
  leadArea : Nat
  trailArea : Nat
  saturated : Bool
  deriving DecidableEq, Repr

/-- The three collections of one half (R19), oldest first. -/
structure HalfLists where
  leads : List Pulse
  orphans : List Pulse
  slot : Option HalfAxle
  deriving DecidableEq, Repr

/-- The collections after every reset (R33). -/
def HalfLists.reset : HalfLists := { leads := [], orphans := [], slot := none }

/-- An axle observation as half combination gives it to the assembler (R31). -/
structure Observation where
  direction : Direction
  time : LocalTime
  speed : Nat
  left : Option HalfAxle
  right : Option HalfAxle
  deriving DecidableEq, Repr

/-! ## Vehicles -/

/-- A present half of an axle with its load and marks (R43). `remote`: it came from a peer (R102, R105). -/
structure HalfLoad where
  load : Nat
  saturated : Bool
  mismatch : Bool
  remote : Bool
  deriving DecidableEq, Repr

/-- An axle in a vehicle's list (R31, R43). The axle load, the axle's marks and its straddled mark follow from
the halves (Machine/Load.lean). `tag` tells the axles of one vehicle apart, for the edge list (R91); it is the
model's own. `index` is the position the axle had when it was placed (R90). -/
structure Axle where
  tag : Nat
  index : Nat
  time : LocalTime
  speed : Nat
  direction : Direction
  left : Option HalfLoad
  right : Option HalfLoad
  deriving DecidableEq, Repr

/-- The sixteen flags of a vehicle (05, Flags), in the order of the flag table. -/
structure Flags where
  incomplete : Bool
  mismatch : Bool
  saturated : Bool
  truncated : Bool
  continuation : Bool
  unsteady : Bool
  wrongWay : Bool
  straddle : Bool
  edgeUnmatched : Bool
  partnerLost : Bool
  tempHeld : Bool
  tempDefault : Bool
  lateTrigger : Bool
  triggerLost : Bool
  singleTrack : Bool
  correctionDefault : Bool
  deriving DecidableEq, Repr

/-- No flag set. -/
def Flags.none : Flags :=
  { incomplete := false, mismatch := false, saturated := false, truncated := false, continuation := false,
    unsteady := false, wrongWay := false, straddle := false, edgeUnmatched := false, partnerLost := false,
    tempHeld := false, tempDefault := false, lateTrigger := false, triggerLost := false,
    singleTrack := false, correctionDefault := false }

/-- The source of an effective temperature (R64). -/
inductive Source where
  | own | peer | ownHeld | held | default
  deriving DecidableEq, Repr

/-- What the temperature unit hands the assembler (R47). -/
structure Handover where
  temp : Int
  source : Source
  factor : Nat
  band : Fin 8
  deriving DecidableEq, Repr

/-- The pairing status of a vehicle (06, The context of the boundary unit). -/
inductive Pairing where
  | unpaired | owner | yielded
  deriving DecidableEq, Repr

/-- A vehicle, open or closing (05, The vehicle context; 06, The context of the boundary unit). -/
structure Vehicle where
  number : Nat
  pairing : Pairing
  /-- The other station of the pair; 0 when unpaired. -/
  peer : Nat
  peerVehicle : Nat
  yieldClosed : Bool
  received : Nat
  forwarded : Nat
  holdDue : Option LocalTime
  direction : Direction
  /-- Latched at opening (R72): temperature, source, F, band. -/
  latched : Handover
  /-- Latched at opening (R72): the band correction. -/
  correction : Nat
  axles : List Axle
  /-- The tag the next placed axle takes; the model's own. -/
  nextTag : Nat
  lastTime : LocalTime
  lastSpeed : Nat
  /-- The separation mark with its time (R76). -/
  separation : Option LocalTime
  gapDue : LocalTime
  gapDueMark : Bool
  flags : Flags
  deriving DecidableEq, Repr

/-- The loop input (R75): the qualified state (none: unknown; some true: OCCUPIED) and the run of equal samples
that has just been read, with the local time of its first sample. -/
structure Loop where
  qualified : Option Bool
  level : Bool
  count : Nat
  since : LocalTime
  deriving DecidableEq, Repr

/-- The vehicle assembler (05): the number last issued, the two slots, the loop, the handover values held. -/
structure Assembler where
  lastNumber : Nat
  openVehicle : Option Vehicle
  closingVehicle : Option Vehicle
  loop : Loop
  handover : Handover
  deriving DecidableEq, Repr

/-! ## Boundary unit -/

/-- An entry of the edge list (R91). `side` is the side the axle's one half faces. -/
structure EdgeEntry where
  side : Half
  vehicle : Nat
  tag : Nat
  time : LocalTime
  speed : Nat
  load : Nat
  index : Nat
  saturated : Bool
  mismatch : Bool
  joined : LocalTime
  deriving DecidableEq, Repr

/-- A kept notice of a remote list (R96), its time converted by R94. -/
structure RemoteNotice where
  source : Nat
  time : LocalTime
  speed : Nat
  load : Nat
  index : Nat
  vehicle : Nat
  saturated : Bool
  mismatch : Bool
  accepted : LocalTime
  deriving DecidableEq, Repr

/-- The boundary unit (06): the edge list in order of admission, a remote list per side in order of acceptance. -/
structure Boundary where
  edges : List EdgeEntry
  remote : PerHalf (List RemoteNotice)
  deriving DecidableEq, Repr

/-! ## Temperature unit -/

/-- The standing of the own probe (04). -/
inductive OwnStatus where
  | absent | starting | valid | hold | stale
  deriving DecidableEq, Repr

/-- An entry of the peer table (R61); meaningless while not present. -/
structure PeerEntry where
  present : Bool
  value : Int
  age : Nat
  deriving DecidableEq, Repr

/-- The temperature unit (04). -/
structure TempUnit where
  status : OwnStatus
  suspect : Bool
  /-- 16 times the filtered temperature; none while unloaded. -/
  filtered : Option Int
  spikes : List Int
  holdAge : Nat
  /-- The entry of station j stands at place j − 1; the station's own place is never present. -/
  peers : Vector PeerEntry 15
  held : Option Int
  heldAge : Nat
  /-- Temperature seconds since a notice was last queued; none: none since reset (R67). -/
  sinceNotice : Option Nat
  /-- The local time of the next temperature second; none while none falls (R50). -/
  secondDue : Option LocalTime
  deriving DecidableEq, Repr

/-! ## Drift tracker and correction store -/

/-- One temperature band of the drift tracker (08): C_b, n_b, S_b, u_b. -/
structure Band where
  correction : Nat
  count : Nat
  sum : Nat
  updates : Nat
  deriving DecidableEq, Repr

/-- A band whose correction is defaulted or not yet loaded (R142, R144). -/
def Band.reset : Band := { correction := 4096, count := 0, sum := 0, updates := 0 }

/-- The fields of a correction record before its check word (R135). -/
structure Correction where
  corrections : List Nat
  updates : List Nat
  saveCount : Nat
  deriving DecidableEq, Repr

/-- The phase of the save in progress (08, The correction store). -/
inductive StoreState where
  | idle | erasing | programming | verifying | fault
  deriving DecidableEq, Repr

/-- A command sent at the configuration memory port (08, The correction store). -/
inductive PortCommand where
  | writeEnable
  | sectorErase (address : Nat)
  | pageProgram (address : Nat) (data : List Byte)
  | readStatus
  | readData (address length : Nat)
  deriving DecidableEq, Repr

/-- The drift tracker and the correction store (08). `phaseAt` is the sample instant from which the commands of the
phase in progress are sent, or of the first status read of the STARTING flow (R137, R160). -/
structure Drift where
  bands : Vector Band 8
  saveCount : Nat
  defaulted : Bool
  store : StoreState
  again : Bool
  snapshot : Option Correction
  phaseDue : Option LocalTime
  phaseAt : LocalTime
  /-- What the last step that used the configuration memory port sent there (notes/assumptions/22). -/
  port : List PortCommand
  deriving DecidableEq, Repr

/-! ## Output unit -/

/-- The camera line (R150): asserted in PULSE alone. -/
inductive Camera where
  | idle | pulse | gap
  deriving DecidableEq, Repr

/-- The output unit (09): the trigger queue of fire times, the camera line with the end time of its pulse or
gap, and the overload line, which in LATCH is the overload latch (R154). -/
structure Output where
  triggers : List LocalTime
  camera : Camera
  cameraEnd : Option LocalTime
  overload : Bool
  deriving DecidableEq, Repr

/-! ## Parameters -/

/-- A point of the temperature curve (R44). -/
structure CurvePoint where
  temp : Int
  factor : Nat
  deriving DecidableEq, Repr

/-- The track condition of a class entry (07). -/
inductive Track where
  | any | singleTrack | twoTrack
  deriving DecidableEq, Repr

/-- A spacing condition of a class entry (R119). -/
structure SpacingCondition where
  index : Nat
  least : Nat
  greatest : Nat
  deriving DecidableEq, Repr

/-- A class table entry (07, The class table); an optional part is absent when its presence bit is clear. -/
structure ClassEntry where
  code : Nat
  leastAxles : Nat
  greatestAxles : Nat
  track : Track
  gross : Option (Nat × Nat)
  conditions : List SpacingCondition
  grossLimit : Option Nat
  axleLimit : Option Nat
  deriving DecidableEq, Repr

/-- The mode of the overload line (R153). -/
inductive OverloadMode where
  | off | follow | latch
  deriving DecidableEq, Repr

/-- The parameter set (10, The parameter table), with the manual's symbols. Times stand as the image gives
them; Machine/Ops.lean converts them to half-ticks. -/
structure Params where
  lane : Nat
  /-- Left and right neighbour; 0 for none. -/
  neighbour : PerHalf Nat
  /-- D -/
  spacing : Nat
  /-- G of each channel; 0 disables it. -/
  gain : PerChannel Nat
  threshold : PerChannel Nat
  /-- L -/
  maxPulse : Nat
  /-- W_h -/
  skew : Nat
  /-- P_m -/
  mismatchPct : Nat
  loopFitted : Bool
  /-- The probe counts as fitted (R51). -/
  probeFitted : Bool
  c0 : Nat
  c100 : Nat
  /-- k -/
  filterShift : Nat
  /-- J -/
  jump : Nat
  /-- H_own -/
  holdOwn : Nat
  /-- A_fresh -/
  freshAge : Nat
  /-- D_dis -/
  disagree : Nat
  /-- H_eff -/
  holdEff : Nat
  /-- T_def -/
  tempDefault : Int
  /-- P_n -/
  noticePeriod : Nat
  curve : List CurvePoint
  /-- T_base -/
  tempBase : Int
  /-- W_b -/
  bandWidth : Nat
  /-- S_max -/
  maxSpacing : Nat
  /-- U -/
  unsteadyPct : Nat
  /-- W_s, ms -/
  edgeWait : Nat
  /-- K -/
  matchWindow : Nat
  /-- P_v -/
  speedPct : Nat
  /-- Y, ms -/
  yieldHold : Nat
  classTable : List ClassEntry
  siteAxleLimit : Nat
  siteGrossLimit : Nat
  /-- tol -/
  tolerance : Nat
  /-- V_scr -/
  screenSpeed : Nat
  /-- Tracking is on (R130). -/
  tracking : Bool
  refClass : Nat
  /-- N -/
  nominal : Nat
  /-- M -/
  samples : Nat
  /-- Δ -/
  maxStep : Nat
  /-- V_rmin, V_rmax -/
  refSpeed : Nat × Nat
  /-- G_rmin, G_rmax -/
  refGross : Nat × Nat
  /-- X_cam -/
  camera : Nat
  /-- P_w, ms -/
  pulseWidth : Nat
  /-- G_t, ms -/
  pulseGap : Nat
  overloadMode : OverloadMode
  statusPeriod : Nat
  deriving DecidableEq, Repr

/-- The parameter set while no image has been prepared: zeros, no channel enabled, everything off. The manual
gives it no value then and uses none of it (notes/assumptions/6). -/
def Params.unprepared : Params :=
  { lane := 0, neighbour := ⟨0, 0⟩, spacing := 0, gain := ⟨0, 0, 0, 0⟩, threshold := ⟨0, 0, 0, 0⟩,
    maxPulse := 0, skew := 0, mismatchPct := 0, loopFitted := false, probeFitted := false, c0 := 0, c100 := 0,
    filterShift := 0, jump := 0, holdOwn := 0, freshAge := 0, disagree := 0, holdEff := 0, tempDefault := 0,
    noticePeriod := 0, curve := [], tempBase := 0, bandWidth := 0, maxSpacing := 0, unsteadyPct := 0,
    edgeWait := 0, matchWindow := 0, speedPct := 0, yieldHold := 0, classTable := [], siteAxleLimit := 0,
    siteGrossLimit := 0, tolerance := 0, screenSpeed := 0, tracking := false, refClass := 0, nominal := 0,
    samples := 0, maxStep := 0, refSpeed := (0, 0), refGross := (0, 0), camera := 0, pulseWidth := 0,
    pulseGap := 0, overloadMode := .off, statusPeriod := 0 }

/-! ## Station control -/

/-- The state from which MUTE was entered (R163). -/
inductive Origin where
  | fromRunning | fromHalted
  deriving DecidableEq, Repr

/-- The station state with the MUTE origin (10, Station control). -/
inductive Station where
  | starting | running | halted | mute (origin : Origin)
  deriving DecidableEq, Repr

/-- The link bit rate from the rate straps, in kbit/s (R159). -/
inductive BitRate where
  | kbit125 | kbit250 | kbit500 | kbit1000
  deriving DecidableEq, Repr

/-- The outcome of the image checks (R161). -/
inductive ImageState where
  | good | noMemory | badFormat | badLength | badCheck | notRead
  deriving DecidableEq, Repr

/-- The reset cause set (R168). -/
structure Causes where
  power : Bool
  pin : Bool
  command : Bool
  deriving DecidableEq, Repr

/-- The sixteen event counters (R170), in their order. -/
inductive Counter where
  | loneLeads | orphanTrails | overlongPulses | axlesAdmitted | recordsProduced | vehiclesYielded
  | edgesUnmatched | noticesExpired | lateTransfers | probeRejected | framesDiscarded | receiveOverruns
  | transmitDrops | bitErrors | lineFaults | triggersLost
  deriving DecidableEq, Repr

/-- The place of a counter in the order of R170, from 0. -/
def Counter.place : Counter → Fin 16
  | .loneLeads => 0
  | .orphanTrails => 1
  | .overlongPulses => 2
  | .axlesAdmitted => 3
  | .recordsProduced => 4
  | .vehiclesYielded => 5
  | .edgesUnmatched => 6
  | .noticesExpired => 7
  | .lateTransfers => 8
  | .probeRejected => 9
  | .framesDiscarded => 10
  | .receiveOverruns => 11
  | .transmitDrops => 12
  | .bitErrors => 13
  | .lineFaults => 14
  | .triggersLost => 15

/-- Station control but for local time and the counters (10, Station control). `held`: the reset pin holds the station
in reset (R159); the state then stands at STARTING (notes/assumptions/9). -/
structure Control where
  station : Station
  held : Bool
  /-- The station number, 0 to 15. -/
  number : Nat
  rate : BitRate
  image : ImageState
  adjusted : Bool
  revision : Nat
  params : Params
  causes : Causes
  statusDue : Option LocalTime
  deriving DecidableEq, Repr

/-! ## Site link -/

/-- The eight kinds of frame (R175). -/
inductive Kind where
  | announce | status | command | temperature | vehicle | halfAxle | transfer | yieldClosed
  deriving DecidableEq, Repr

/-- The condition of the line (R174). -/
inductive Monitor where
  | idle | busy | breakSeen | lineFault
  deriving DecidableEq, Repr

/-- Where the receiver stands (R178). -/
inductive Receiver where
  | hunt | ready | inFrame
  deriving DecidableEq, Repr

/-- Where the transmitter stands (R182 to R186). -/
inductive Transmitter where
  | idle | waitIdle | arbitrating | sending | breaking | mute
  deriving DecidableEq, Repr

/-- A good frame awaiting dispatch, with its timestamp (R177, R180). -/
structure RxFrame where
  kind : Kind
  source : Nat
  payload : List Byte
  stamp : LocalTime
  deriving DecidableEq, Repr

/-- The screening verdict (R125). -/
inductive Verdict where
  | clear | axleOver | grossOver | bothOver | notScreened
  deriving DecidableEq, Repr

/-- An axle entry of a vehicle record (R87). -/
structure RecordAxle where
  load : Nat
  left : Bool
  right : Bool
  reverse : Bool
  saturated : Bool
  mismatch : Bool
  straddled : Bool
  deriving DecidableEq, Repr

/-- A vehicle record (R86). -/
structure Record where
  lane : Nat
  number : Nat
  firstTime : LocalTime
  classCode : Nat
  verdict : Verdict
  flags : Flags
  meanSpeed : Nat
  gross : Nat
  wheelbase : Nat
  temp : Int
  source : Source
  band : Fin 8
  correction : Nat
  axles : List RecordAxle
  spacings : List Nat
  deriving DecidableEq, Repr

/-- The content of a frame as it is queued; the age of a HALF-AXLE or TRANSFER and the station time of a STATUS
are formed at each attempt (R93, R169). -/
inductive Body where
  /-- R168 -/
  | announce (lane left right : Nat) (image : ImageState) (adjusted defaulted : Bool) (causes : Causes)
      (revision : Nat)
  /-- R169: RUNNING or HALTED, and the status flags and counters at queuing. -/
  | status (running : Bool) (own : OwnStatus) (suspect storeFault defaulted overload adjusted : Bool)
      (counters : Vector Nat 16)
  /-- R66 -/
  | temperature (value : Int)
  /-- R85 -/
  | vehicle (record : Record)
  /-- R92 -/
  | halfAxle (side : Half) (event : LocalTime) (speed load index vehicle : Nat) (saturated mismatch : Bool)
  /-- R103 -/
  | transfer (owner vehicle : Nat) (event : LocalTime) (speed : Nat) (left right : Option Nat) (index : Nat)
      (saturated mismatch : Bool)
  /-- R104 -/
  | yieldClosed (owner vehicle forwarded : Nat)
  deriving DecidableEq, Repr

/-- A frame of the transmit queue, with its own bit-error count (R184) and whether it is under attempt (R187). -/
structure TxFrame where
  body : Body
  errors : Nat
  attempted : Bool
  deriving DecidableEq, Repr

/-- A character as it is sent: its mark bit and its data byte (R173, R175). -/
structure Character where
  mark : Bool
  data : Byte
  deriving DecidableEq, Repr

/-- The link controller (11). `buffer` is the frame buffer, with the timestamp of its header start bit and its
noise mark; `bufferOwn` says that the frame in it began with the start bit of this station's latest attempt, which has
not been lost (R179, notes/assumptions/14), and `ownSent` that it is one this station has sent whole (R180); `driven` are the
characters of the frame under attempt as that attempt formed them (R175, R182), none once a bit error has given it up for
the break (R184), and `attemptTime` the local time of
that attempt's start bit (R177). -/
structure Link where
  monitor : Monitor
  receiver : Receiver
  buffer : List Byte
  bufferStamp : LocalTime
  bufferNoise : Bool
  bufferOwn : Bool
  ownSent : Bool
  receiveQueue : List RxFrame
  transmitter : Transmitter
  transmitQueue : List TxFrame
  driven : List Character
  attemptTime : LocalTime
  consecutiveErrors : Nat
  deriving DecidableEq, Repr

/-! ## The state -/

/-- The whole station, and the queue of commands that wait, first in, first out. -/
structure State where
  localTime : LocalTime
  control : Control
  counters : Vector Nat 16
  channels : PerChannel Channel
  pairs : PerHalf HalfLists
  assembler : Assembler
  boundary : Boundary
  temp : TempUnit
  drift : Drift
  output : Output
  link : Link
  /-- The model's own: how many free values have been drawn (notes/assumptions/2). -/
  freeCount : Nat
  pending : List Instr
  deriving DecidableEq, Repr

/-- Why a step may stop with a fault: no step of this part does. Its commands are events, and an event whose
condition does not hold changes nothing (notes/assumptions/4, 27). -/
inductive Fault where
  deriving DecidableEq, Repr

/-- Why a step may be refused. -/
inductive Refusal where
  /-- Raised by `exec`'s arm of a command that has no meaning yet; safe. No arm raises it. -/
  | notModelled (mnemonic : String)
  deriving DecidableEq, Repr

/-- The station right after power-up: STARTING, local time 0, every block as its chapter states, the reset cause set
at {power} (R159). The manual gives the strap levels no value: the model's reset state has the straps of station 1
at 125 kbit/s (notes/assumptions/5). Every other value that the manual does not state is named in
notes/assumptions/2, 6, 20, 22, 32 and 41: the values before an image, the corrections, the record of the port and
its instant, the value and age of a peer entry that is not present, the held age while no value is held. -/
def State.reset : State :=
  { localTime := 0
    control :=
      { station := .starting, held := false, number := 1, rate := .kbit125, image := .notRead, adjusted := false,
        revision := 0, params := Params.unprepared, causes := ⟨true, false, false⟩, statusDue := none }
    counters := Vector.replicate 16 0
    channels := ⟨Channel.reset, Channel.reset, Channel.reset, Channel.reset⟩
    pairs := ⟨HalfLists.reset, HalfLists.reset⟩
    assembler :=
      { lastNumber := 0, openVehicle := none, closingVehicle := none,
        loop := { qualified := none, level := false, count := 0, since := 0 },
        handover := { temp := 0, source := .default, factor := 16384, band := 0 } }
    boundary := { edges := [], remote := ⟨[], []⟩ }
    temp :=
      { status := .absent, suspect := false, filtered := none, spikes := [], holdAge := 0,
        peers := Vector.replicate 15 { present := false, value := 0, age := 0 }, held := none, heldAge := 0,
        sinceNotice := none, secondDue := none }
    drift :=
      { bands := Vector.replicate 8 Band.reset, saveCount := 0, defaulted := false, store := .idle,
        again := false, snapshot := none, phaseDue := none, phaseAt := 0, port := [.readStatus] }
    output := { triggers := [], camera := .gap, cameraEnd := none, overload := false }
    link :=
      { monitor := .busy, receiver := .hunt, buffer := [], bufferStamp := 0, bufferNoise := false,
        bufferOwn := false, ownSent := false, receiveQueue := [], transmitter := .idle, transmitQueue := [], driven := [],
        attemptTime := 0, consecutiveErrors := 0 }
    freeCount := 0
    pending := [] }

end Sys2Proof.Machine
end

