-- ==== Sys2Proof/Machine/Flags.lean ====
section
/-! DEFINITION. The vehicle flags and the marks as bits: the flag word of a vehicle record, the pattern byte of an
axle, the marks byte of a notice, the flag byte of a STATUS (11, Byte layouts), and the flag tests of screening
(R122) and of reference sampling (R131). -/
namespace Sys2Proof.Machine

/-- A number from its bits, most significant first. -/
def bitsToNat (bits : List Bool) : Nat := bits.foldl (fun n b => 2 * n + b.toNat) 0

namespace Flags

/-- The flag word of a VEHICLE payload: bit 15 to bit 0 in the order of the flag table. -/
def word (f : Flags) : Nat :=
  bitsToNat [f.incomplete, f.mismatch, f.saturated, f.truncated, f.continuation, f.unsteady, f.wrongWay,
    f.straddle, f.edgeUnmatched, f.partnerLost, f.tempHeld, f.tempDefault, f.lateTrigger, f.triggerLost,
    f.singleTrack, f.correctionDefault]

/-- Some flag keeps the vehicle out of screening (R122). -/
def barsScreening (f : Flags) : Bool :=
  f.incomplete || f.mismatch || f.saturated || f.truncated || f.continuation || f.wrongWay ||
    f.tempDefault || f.partnerLost || f.edgeUnmatched

/-- Some flag keeps the vehicle out of the reference samples (R131). -/
def barsReference (f : Flags) : Bool :=
  f.barsScreening || f.straddle || f.unsteady || f.tempHeld

/-- The flags a vehicle takes from the source it latches (R72, step 3). -/
def ofSource : Source → Flags
  | .own | .peer => Flags.none
  | .ownHeld | .held => { Flags.none with tempHeld := true }
  | .default => { Flags.none with tempDefault := true }

end Flags

/-- The marks byte of a HALF-AXLE or TRANSFER: bit 1 saturated, bit 0 mismatch. -/
def marksByte (saturated mismatch : Bool) : Nat := bitsToNat [saturated, mismatch]

/-- The code of a source in a vehicle record. -/
def Source.code : Source → Nat
  | .own => 0
  | .peer => 1
  | .ownHeld => 2
  | .held => 3
  | .default => 4

/-- The code of a verdict in a vehicle record. -/
def Verdict.code : Verdict → Nat
  | .clear => 0
  | .axleOver => 1
  | .grossOver => 2
  | .bothOver => 3
  | .notScreened => 4

/-- The over verdicts (R125). -/
def Verdict.isOver : Verdict → Bool
  | .axleOver | .grossOver | .bothOver => true
  | .clear | .notScreened => false

/-- The code of an own probe status in a STATUS. -/
def OwnStatus.code : OwnStatus → Nat
  | .absent => 0
  | .starting => 1
  | .valid => 2
  | .hold => 3
  | .stale => 4

/-- The code of an image state in an ANNOUNCE; NOT-READ is never announced (R168). -/
def ImageState.code : ImageState → Nat
  | .good => 0
  | .noMemory => 1
  | .badFormat => 2
  | .badLength => 3
  | .badCheck => 4
  | .notRead => 0

/-- The pattern byte of an axle entry: bit 5 left present to bit 0 straddled (R87). -/
def RecordAxle.pattern (a : RecordAxle) : Nat :=
  bitsToNat [a.left, a.right, a.reverse, a.saturated, a.mismatch, a.straddled]

end Sys2Proof.Machine
end

