-- ==== Sys2Proof/Machine/Operands.lean ====
section
/-! DEFINITION. Byte fields and layouts (11, Byte layouts): fields of more than one byte most significant byte first,
signed fields in two's complement; the payload of every kind of frame as it is sent, the check character, and
the fields of the payloads that a station takes. -/
namespace Sys2Proof.Machine

/-! ## Fields of a list of bytes -/

/-- The byte at an offset. A byte that is not there reads 0xFF, as a data line that floats high does (R160). -/
def byteAt (bytes : List Byte) (at' : Nat) : Nat := (bytes.getD at' 0xFF).toNat

/-- A two-byte field. -/
def u16At (bytes : List Byte) (at' : Nat) : Nat := 256 * byteAt bytes at' + byteAt bytes (at' + 1)

/-- A three-byte field. -/
def u24At (bytes : List Byte) (at' : Nat) : Nat := 256 * u16At bytes at' + byteAt bytes (at' + 2)

/-- A two-byte field in two's complement. -/
def s16At (bytes : List Byte) (at' : Nat) : Int :=
  if u16At bytes at' < 32768 then u16At bytes at' else (u16At bytes at' : Int) - 65536

/-- The sum of the byte values. -/
def byteSum (bytes : List Byte) : Nat := bytes.foldl (fun n b => n + b.toNat) 0

/-- A field of one byte. -/
def be8 (n : Nat) : List Byte := [BitVec.ofNat 8 n]

/-- A field of two bytes. -/
def be16 (n : Nat) : List Byte := be8 (n / 256) ++ be8 n

/-- A field of three bytes. -/
def be24 (n : Nat) : List Byte := be8 (n / 65536) ++ be16 n

/-- A field of four bytes. -/
def be32 (n : Nat) : List Byte := be16 (n / 65536) ++ be16 n

/-- A signed field of two bytes. -/
def beS16 (i : Int) : List Byte := be16 (BitVec.ofInt 16 i).toNat

/-! ## Kinds -/

namespace Kind

/-- The kind code (R175). -/
def code : Kind → Nat
  | .announce => 1
  | .status => 2
  | .command => 3
  | .temperature => 4
  | .vehicle => 5
  | .halfAxle => 6
  | .transfer => 7
  | .yieldClosed => 8

/-- The kind of a code; codes 0 and 9 to 31 are unknown (R175). -/
def ofCode : Nat → Option Kind
  | 1 => some .announce
  | 2 => some .status
  | 3 => some .command
  | 4 => some .temperature
  | 5 => some .vehicle
  | 6 => some .halfAxle
  | 7 => some .transfer
  | 8 => some .yieldClosed
  | _ => none

/-- The fixed priority class of a kind, 1 the highest (R175, R187). -/
def priority : Kind → Nat
  | .announce => 6
  | .status => 6
  | .command => 2
  | .temperature => 5
  | .vehicle => 3
  | .halfAxle => 1
  | .transfer => 1
  | .yieldClosed => 1

/-- The header byte: priority class × 32 + kind (R175). -/
def header (k : Kind) : Nat := 32 * k.priority + k.code

/-- A kind of which the transmit queue holds at most one frame (R187). -/
def single : Kind → Bool
  | .announce | .status | .temperature => true
  | .command | .vehicle | .halfAxle | .transfer | .yieldClosed => false

/-- The payload has the length of its kind; for a VEHICLE by the axle count it carries (R175, R179). -/
def lengthFits (k : Kind) (payload : List Byte) : Bool :=
  match k with
  | .announce => payload.length == 6
  | .status => payload.length == 38
  | .command => payload.length == 2
  | .temperature => payload.length == 2
  | .vehicle =>
    let n := byteAt payload 7
    1 ≤ n && n ≤ Config.axleCapacity && payload.length == 24 + 5 * n
  | .halfAxle => payload.length == 12
  | .transfer => payload.length == 14
  | .yieldClosed => payload.length == 4

end Kind

/-! ## Frames as they are sent -/

namespace Body

/-- The kind of a queued frame. -/
def kind : Body → Kind
  | .announce .. => .announce
  | .status .. => .status
  | .temperature .. => .temperature
  | .vehicle .. => .vehicle
  | .halfAxle .. => .halfAxle
  | .transfer .. => .transfer
  | .yieldClosed .. => .yieldClosed

/-- The event whose age the frame carries (R93). -/
def event : Body → Option LocalTime
  | .halfAxle _ event .. => some event
  | .transfer _ _ event .. => some event
  | .announce .. | .status .. | .temperature .. | .vehicle .. | .yieldClosed .. => none

end Body

/-- The code of a side in a HALF-AXLE. -/
def sideCode : Half → Nat
  | .left => 0
  | .right => 1

/-- The payload of a vehicle record (R86, R87). -/
def Record.payload (r : Record) : List Byte :=
  be8 r.lane ++ be16 r.number ++ be32 r.firstTime.toNat ++ be8 r.axles.length ++ be8 r.classCode ++
    be8 r.verdict.code ++ be16 r.flags.word ++ be24 r.meanSpeed ++ be24 r.gross ++ be24 r.wheelbase ++
    beS16 r.temp ++ be8 (16 * r.source.code + r.band.val) ++ be16 r.correction ++
    r.axles.flatMap (fun a => be16 a.load ++ be8 a.pattern) ++ r.spacings.flatMap be16

/-- The payload of a frame whose attempt has its start bit at `start`; the event age and the station time are
formed from it (R93, R169, R182). -/
def Body.payload (b : Body) (start : LocalTime) : List Byte :=
  match b with
  | .announce lane left right image adjusted defaulted causes revision =>
    be8 lane ++ be8 (16 * left + right) ++
      be8 (32 * defaulted.toNat + 16 * adjusted.toNat + image.code) ++
      be8 (bitsToNat [causes.command, causes.pin, causes.power]) ++ be16 revision
  | .status running own suspect storeFault defaulted overload adjusted counters =>
    be8 (if running then 1 else 2) ++
      be8 (8 * bitsToNat [adjusted, overload, defaulted, storeFault, suspect] + own.code) ++
      be32 start.toNat ++ counters.toList.flatMap be16
  | .temperature value => beS16 value
  | .vehicle record => record.payload
  | .halfAxle side event speed load index number saturated mismatch =>
    be8 (sideCode side) ++ be16 (start - event).toNat ++ be24 speed ++ be16 load ++ be8 index ++
      be16 number ++ be8 (marksByte saturated mismatch)
  | .transfer owner number event speed left right index saturated mismatch =>
    be8 owner ++ be16 number ++ be16 (start - event).toNat ++ be24 speed ++
      be16 (left.getD Config.absentLoad) ++ be16 (right.getD Config.absentLoad) ++ be8 index ++
      be8 (marksByte saturated mismatch)
  | .yieldClosed owner number forwarded => be8 owner ++ be16 number ++ be8 forwarded

/-! ## The check character -/

/-- One shift of the check register (R176). -/
def crcShift (r : Byte) : Byte := if r.msb then (r <<< 1) ^^^ 0x07 else r <<< 1

/-- One byte into the check register: combined by exclusive-or, then eight shifts (R176). -/
def crcByte (r b : Byte) : Byte :=
  crcShift (crcShift (crcShift (crcShift (crcShift (crcShift (crcShift (crcShift (r ^^^ b))))))))

/-- The check character over the data bytes before it (R176). -/
def crc8 (bytes : List Byte) : Byte := bytes.foldl crcByte 0

/-- The data bytes of a frame: header, source, length, payload, check (R175). -/
def frameBytes (source : Nat) (b : Body) (start : LocalTime) : List Byte :=
  let payload := b.payload start
  let bytes := be8 b.kind.header ++ be8 source ++ be8 payload.length ++ payload
  bytes ++ [crc8 bytes]

/-- The characters of a frame: the header carries mark 1, every character after it mark 0 (R175). -/
def markFrame : List Byte → List Character
  | [] => []
  | header :: rest => { mark := true, data := header } :: rest.map (fun b => { mark := false, data := b })

/-- The bits of a character, recessive as true: a dominant start bit, the data bits most significant first, the mark
bit, a recessive stop bit (R173). -/
def Character.bits (c : Character) : List Bool :=
  false :: (List.ofFn (fun i : Fin 8 => c.data.getMsbD i) ++ [c.mark, true])

/-- The characters of a frame as it is sent (R175). -/
def frameCharacters (source : Nat) (b : Body) (start : LocalTime) : List Character :=
  markFrame (frameBytes source b start)

/-! ## Payloads a station takes -/

/-- The fields of a HALF-AXLE payload; a side code that names no side is none. -/
structure HalfAxleFields where
  side : Option Half
  age : Nat
  speed : Nat
  load : Nat
  index : Nat
  vehicle : Nat
  saturated : Bool
  mismatch : Bool
  deriving DecidableEq, Repr

/-- Bit 1 of a marks byte. -/
def markSaturated (n : Nat) : Bool := n.testBit 1

/-- Bit 0 of a marks byte. -/
def markMismatch (n : Nat) : Bool := n.testBit 0

/-- Reading a HALF-AXLE payload. -/
def halfAxleFields (p : List Byte) : HalfAxleFields :=
  { side := match byteAt p 0 with
      | 0 => some .left
      | 1 => some .right
      | _ => none
    age := u16At p 1, speed := u24At p 3, load := u16At p 6, index := byteAt p 8, vehicle := u16At p 9,
    saturated := markSaturated (byteAt p 11), mismatch := markMismatch (byteAt p 11) }

/-- The fields of a TRANSFER payload; a load of 0xFFFF is an absent half. -/
structure TransferFields where
  owner : Nat
  vehicle : Nat
  age : Nat
  speed : Nat
  left : Option Nat
  right : Option Nat
  index : Nat
  saturated : Bool
  mismatch : Bool
  deriving DecidableEq, Repr

/-- A half load field of a TRANSFER. -/
def transferLoad (n : Nat) : Option Nat := if n = Config.absentLoad then none else some n

/-- Reading a TRANSFER payload. -/
def transferFields (p : List Byte) : TransferFields :=
  { owner := byteAt p 0, vehicle := u16At p 1, age := u16At p 3, speed := u24At p 5,
    left := transferLoad (u16At p 8), right := transferLoad (u16At p 10), index := byteAt p 12,
    saturated := markSaturated (byteAt p 13), mismatch := markMismatch (byteAt p 13) }

/-- The fields of a YIELD-CLOSED payload. -/
structure YieldFields where
  owner : Nat
  vehicle : Nat
  forwarded : Nat
  deriving DecidableEq, Repr

/-- Reading a YIELD-CLOSED payload. -/
def yieldFields (p : List Byte) : YieldFields :=
  { owner := byteAt p 0, vehicle := u16At p 1, forwarded := byteAt p 3 }

/-- The target of a COMMAND. -/
def commandTarget (p : List Byte) : Nat := byteAt p 0

/-- The code of a COMMAND: 1 CLEAR-LATCH, 2 RESTART, 3 STATUS-NOW. -/
def commandCode (p : List Byte) : Nat := byteAt p 1

/-- The value of a TEMPERATURE. -/
def temperatureValue (p : List Byte) : Int := s16At p 0

/-! ## The correction record -/

/-- The 34 bytes of a correction record before its check word (R135). -/
def Correction.head (c : Correction) : List Byte :=
  c.corrections.flatMap be16 ++ c.updates.flatMap be16 ++ be16 c.saveCount

/-- The check word: with the sum of the bytes before it, modulo 65536, it gives 0xFFFF (R135). -/
def Correction.bytes (c : Correction) : List Byte :=
  c.head ++ be16 (65535 - byteSum c.head % 65536)

/-- The 36 bytes form a good correction record (R135). -/
def goodCorrection (bytes : List Byte) : Bool :=
  bytes.length == correctionSize && (byteSum (bytes.take 34) + u16At bytes 34) % 65536 == 65535

/-- The fields of a good correction record (R141). -/
def readCorrection (bytes : List Byte) : Correction :=
  { corrections := (List.range 8).map (fun i => u16At bytes (2 * i)),
    updates := (List.range 8).map (fun i => u16At bytes (16 + 2 * i)),
    saveCount := u16At bytes 32 }

/-- The byte code that a port command begins with (08, The correction store). -/
def PortCommand.code : PortCommand → Byte
  | .writeEnable => 0x06
  | .sectorErase _ => 0x20
  | .pageProgram _ _ => 0x02
  | .readStatus => 0x05
  | .readData _ _ => 0x03

/-- The bytes sent to the memory: the code, an address as three bytes, the data (08, The correction store). -/
def PortCommand.bytes (p : PortCommand) : List Byte :=
  match p with
  | .writeEnable => [p.code]
  | .sectorErase address => p.code :: be24 address
  | .pageProgram address data => p.code :: (be24 address ++ data)
  | .readStatus => [p.code]
  | .readData address _ => p.code :: be24 address

end Sys2Proof.Machine
end

