-- ==== Sys2Proof/Machine/Ops.lean ====
section
/-! DEFINITION. The operations every block shares: time, arithmetic, counters, the entry of a frame into the transmit
queue, the head of the receive queue, and finding and updating the vehicles. -/
namespace Sys2Proof.Machine

/-! ## Time -/

/-- The difference of two local times: modulo 2^32, read as signed (00_scope, Units). -/
abbrev sdiff (a b : LocalTime) : Int := (a - b).toInt

/-- Local time `now` has reached or passed `due`, by signed difference. -/
def reached (now due : LocalTime) : Bool := 0 ≤ sdiff now due

/-- `due` is set and has been reached or passed. -/
def dueReached (now : LocalTime) (due : Option LocalTime) : Bool :=
  match due with
  | none => false
  | some t => reached now t

/-- A local time some half-ticks later, modulo 2^32. -/
abbrev later (t : LocalTime) (halfTicks : Nat) : LocalTime := t + BitVec.ofNat 32 halfTicks

/-- A sample instant: an even local time (R1). -/
def sampleInstant (now : LocalTime) : Bool := now.toNat % 2 == 0

/-- The first sample instant at or after a local time (R137). -/
def nextSampleInstant (now : LocalTime) : LocalTime := if sampleInstant now then now else later now 1

/-- The sample index of a local time (R1). -/
def sampleIndex (now : LocalTime) : SampleIndex := BitVec.ofNat 31 (now.toNat / 2)

/-- Milliseconds in half-ticks, floored (06, 09). -/
abbrev msToTicks (ms : Nat) : Nat := ms * Config.halfTicksPerSecond / 1000

/-! ## Arithmetic -/

/-- Clamp to a range (00_scope, Arithmetic). -/
def clampNat (lo hi x : Nat) : Nat := if x < lo then lo else if hi < x then hi else x

/-- Clamp to a range of signed values. -/
def clampInt (lo hi x : Int) : Int := if x < lo then lo else if hi < x then hi else x

/-- The distance of two numbers. -/
def absDiff (a b : Nat) : Nat := if a ≤ b then b - a else a - b

/-- Of the entries with the smallest distance, the first (R98, R99, R105). -/
def nearest {α : Type} (dist : α → Nat) : List α → Option α
  | [] => none
  | a :: l =>
    match nearest dist l with
    | none => some a
    | some b => if dist a ≤ dist b then some a else some b

/-- The permutation with code `k` of a list: the code picks the first entry, then the first of the rest. Every order
of the list has a code. `fuel` is the length of the list. -/
def permuteBy {α : Type} : Nat → Nat → List α → List α
  | fuel + 1, k, a :: b :: l =>
    let all := a :: b :: l
    match all[k % all.length]? with
    | none => all
    | some x => x :: permuteBy fuel (k / all.length) (all.eraseIdx (k % all.length))
  | _, _, l => l

/-- A list in the order with code `k`. -/
def inOrder {α : Type} (k : Nat) (l : List α) : List α := permuteBy l.length k l

/-- Two lists taken together, each in its own order: each bit of the code `k` says from which list the next entry
comes. Every such order has a code. `fuel` is the sum of their lengths. -/
def interleaveBy {α : Type} : Nat → Nat → List α → List α → List α
  | fuel + 1, k, a :: l, b :: r =>
    if k % 2 = 0 then a :: interleaveBy fuel (k / 2) l (b :: r) else b :: interleaveBy fuel (k / 2) (a :: l) r
  | _, _, l, r => l ++ r

/-- Two lists taken together in the order with code `k`. -/
def interleave {α : Type} (k : Nat) (l r : List α) : List α := interleaveBy (l.length + r.length) k l r

/-! ## The station state -/

namespace State

/-- The station measures: RUNNING, or MUTE entered from RUNNING (R1, R163). -/
def measuring (s : State) : Bool :=
  match s.control.station with
  | .running => true
  | .mute .fromRunning => true
  | .starting | .halted | .mute .fromHalted => false

/-- The station measures and the instant is a sample instant. -/
def measuringSample (s : State) : Bool := s.measuring && sampleInstant s.localTime

/-- The STARTING flow runs: the station is STARTING and no longer held in reset by the pin (R159, R160). -/
def starts (s : State) : Bool := s.control.station = .starting && !s.control.held

/-- The result of a status read comes: the first is sent at the phase's instant, and its result is taken at the next
sample instant, and so on from one sample instant to the next (R137, R160, notes/assumptions/32). -/
def answered (s : State) : Bool := sampleInstant s.localTime && 0 < sdiff s.localTime s.drift.phaseAt

/-- The result of the one read of the phase comes: the next sample instant after it was sent (R137). -/
def readEnds (s : State) : Bool := sampleInstant s.localTime && s.localTime == later s.drift.phaseAt 2

/-- A half is live when both its channels are enabled (R2). -/
def live (s : State) (h : Half) : Bool :=
  match h with
  | .left => s.control.params.gain.ll != 0 && s.control.params.gain.tl != 0
  | .right => s.control.params.gain.lr != 0 && s.control.params.gain.tr != 0

/-- The value of a counter. -/
def counter (s : State) (c : Counter) : Nat := s.counters.get c.place

/-- A counter adds `n` and saturates (R170). -/
def bumpBy (c : Counter) (n : Nat) (s : State) : State :=
  { s with counters := s.counters.set c.place.val (min Config.counterMax (s.counter c + n)) c.place.isLt }

/-- A counter adds 1 and saturates (R170). -/
def bump (c : Counter) (s : State) : State := s.bumpBy c 1

/-- The code of the order in which events of this instant are taken, and the state in which it has been drawn
(notes/assumptions/2). -/
def drawOrder (s : State) : Nat := Config.freeOrder s.freeCount

/-- One free value has been drawn. -/
def drawn (s : State) : State := { s with freeCount := s.freeCount + 1 }

end State

/-! ## The transmit queue -/

namespace TxFrame

/-- The priority class of a queued frame. -/
def priority (f : TxFrame) : Nat := f.body.kind.priority

end TxFrame

/-- A new frame enters after every frame of its own class and of higher priority, before every frame of lower
priority (R187). -/
def queueInsert (f : TxFrame) (q : List TxFrame) : List TxFrame :=
  q.takeWhile (fun g => g.priority ≤ f.priority) ++ f :: q.dropWhile (fun g => g.priority ≤ f.priority)

/-- The lowest priority among the queued frames not under attempt, as the largest class number; 0 when there is
none (R188). -/
def lowestClass (q : List TxFrame) : Nat :=
  ((q.filter (fun f => !f.attempted)).map TxFrame.priority).foldl max 0

/-- The queue without the newest frame of a class that is not under attempt (R188). -/
def dropNewest (cls : Nat) (q : List TxFrame) : List TxFrame :=
  (q.reverse.eraseP (fun f => !f.attempted && f.priority == cls)).reverse

/-- A new frame finds the queue, and no queued frame of its own single-instance kind (R187, R188): the queue after
it, and whether a frame was dropped. -/
def queueEnter (f : TxFrame) (q : List TxFrame) : List TxFrame × Bool :=
  if q.length < Config.transmitCapacity then (queueInsert f q, false)
  else if f.priority < lowestClass q then (queueInsert f (dropNewest (lowestClass q) q), true)
  else (q, true)

/-- The transmit queue takes a new frame (R187, R188): the queue after it, and whether a frame was dropped and
counted. -/
def queueTake (b : Body) (q : List TxFrame) : List TxFrame × Bool :=
  let f : TxFrame := { body := b, errors := 0, attempted := false }
  if b.kind.single then
    match q.find? (fun g => g.body.kind == b.kind) with
    | some g =>
      if g.attempted then (q, true)
      else (queueInsert f (q.filter (fun g => g.body.kind != b.kind)), false)
    | none => queueEnter f q
  else queueEnter f q

namespace State

/-- A frame enters the transmit queue; a transmitter that was IDLE waits for idle (R182, R187). -/
def enqueue (b : Body) (s : State) : State :=
  let r := queueTake b s.link.transmitQueue
  let t := match s.link.transmitter with
    | .idle => if r.1.isEmpty then .idle else .waitIdle
    | other => other
  let s' := { s with link := { s.link with transmitQueue := r.1, transmitter := t } }
  if r.2 then s'.bump .transmitDrops else s'

/-- A block produces a frame: it is queued in RUNNING and HALTED; in MUTE it is discarded where it is formed, and in
STARTING nothing is transmitted (R163, R186). -/
def produce (b : Body) (s : State) : State :=
  match s.control.station with
  | .running | .halted => s.enqueue b
  | .starting | .mute _ => s

/-! ## The receive queue -/

/-- The dispatcher delivers: from the entry to RUNNING or HALTED on, and through MUTE (R181). -/
def delivers (s : State) : Bool :=
  match s.control.station with
  | .running | .halted | .mute _ => true
  | .starting => false

/-- The frame the dispatcher takes next (R181). -/
def headFrame (s : State) : Option RxFrame :=
  if s.delivers then s.link.receiveQueue.head? else none

/-- The head frame, when it is of kind `k` and of a source a peer can have (R181). -/
def headOf (k : Kind) (s : State) : Option RxFrame :=
  match s.headFrame with
  | some f => if f.kind = k && f.source != 0 then some f else none
  | none => none

/-- The payload of the head frame, when it is a COMMAND, of any source (R166). -/
def headCommand (s : State) : Option (List Byte) :=
  match s.headFrame with
  | some f => if f.kind = .command then some f.payload else none
  | none => none

/-- A command with this target addresses this station (R166). -/
def addressed (s : State) (target : Nat) : Bool := target == 0 || target == s.control.number

/-- The head frame has been taken from the receive queue (R181). -/
def dispatched (s : State) : State :=
  { s with link := { s.link with receiveQueue := s.link.receiveQueue.tail } }

/-! ## The vehicles -/

/-- The vehicle in a slot. -/
def vehicleIn (s : State) (slot : Slot) : Option Vehicle :=
  match slot with
  | .openSlot => s.assembler.openVehicle
  | .closingSlot => s.assembler.closingVehicle

/-- A slot takes a vehicle or becomes empty. -/
def setSlot (slot : Slot) (v : Option Vehicle) (s : State) : State :=
  match slot with
  | .openSlot => { s with assembler := { s.assembler with openVehicle := v } }
  | .closingSlot => { s with assembler := { s.assembler with closingVehicle := v } }

/-- The slot in which the vehicle of a number stands; the open slot is looked at first. -/
def slotOf (s : State) (number : Nat) : Option Slot :=
  if s.assembler.openVehicle.any (fun v => v.number == number) then some .openSlot
  else if s.assembler.closingVehicle.any (fun v => v.number == number) then some .closingSlot
  else none

/-- The vehicle of a number, open or closing. -/
def vehicle (s : State) (number : Nat) : Option Vehicle :=
  match s.slotOf number with
  | none => none
  | some slot => s.vehicleIn slot

/-- The vehicle of a number changes in its slot. -/
def updateVehicle (number : Nat) (f : Vehicle → Vehicle) (s : State) : State :=
  match s.slotOf number with
  | none => s
  | some slot => s.setSlot slot ((s.vehicleIn slot).map f)

end State

/-! ## Derived parameters -/

namespace Params

/-- Δt_min, the quotient rounded up (R17). -/
abbrev intervalMin (p : Params) : Nat := (p.spacing * 16384 + 69999) / 70000

/-- Δt_max (R17). -/
abbrev intervalMax (p : Params) : Nat := p.spacing * 16384 / 1000

/-- The hand-over allowance A (R17). -/
abbrev allowance (p : Params) : Nat := p.maxPulse + 2

/-- W_s in half-ticks (R91). -/
abbrev edgeWaitTicks (p : Params) : Nat := msToTicks p.edgeWait

/-- Y in half-ticks (R108). -/
abbrev yieldHoldTicks (p : Params) : Nat := msToTicks p.yieldHold

/-- P_w in half-ticks (R150). -/
abbrev pulseTicks (p : Params) : Nat := msToTicks p.pulseWidth

/-- G_t in half-ticks (R150). -/
abbrev gapTicks (p : Params) : Nat := msToTicks p.pulseGap

end Params

/-! ## The outputs -/

namespace State

/-- The camera line is asserted in PULSE and released in IDLE and GAP (R150). -/
def cameraLine (s : State) : Bool := s.output.camera = .pulse

/-- The overload line (R153, R154). -/
def overloadLine (s : State) : Bool := s.output.overload

/-- The fault line is asserted while one of its four conditions holds (R157). -/
def faultLine (s : State) : Bool :=
  (match s.control.station with
    | .mute _ | .halted => true
    | .starting | .running => false) ||
    s.link.monitor = .lineFault || s.drift.store = .fault

end State
end Sys2Proof.Machine
end

