-- ==== Sys2Proof/Machine/Load.lean ====
section
/-! DEFINITION. Axle load arithmetic (chapter 03): the load chain of a half, the axle load and marks that follow from
an axle's halves, the temperature factor and the band. -/
namespace Sys2Proof.Machine

/-! ## The load chain -/

/-- A strip stage: the floored quotient, held at the stage limit, and whether it was held (R36 to R38). -/
def stage (product divisor : Nat) : Nat × Bool :=
  if product / divisor > Config.stageMax then (Config.stageMax, true) else (product / divisor, false)

/-- The three stages of one strip: cal_s, and whether any of the three saturated (R36, R37, R38). -/
def stripLoad (area speed gain factor correction : Nat) : Nat × Bool :=
  let raw := stage (area * speed * gain) (2 ^ 36)
  let comp := stage (raw.1 * factor) 16384
  let cal := stage (comp.1 * correction) 4096
  (cal.1, raw.2 || comp.2 || cal.2)

/-- The mean of the two strips in kilograms, rounded half up, before its limit (R39). -/
def meanLoad (lead trail : Nat) : Nat := (lead + trail + 16) / 32

/-- The strip mismatch test (R40). -/
def stripMismatch (percent lead trail : Nat) : Bool :=
  absDiff lead trail * 100 > percent * max lead trail

/-- The half load of two corrected strips, with its marks (R39, R40, R41); `saturated` says that a pulse or a stage
was saturated. -/
def halfLoadOf (percent : Nat) (lead trail : Nat) (saturated : Bool) : HalfLoad :=
  { load := min Config.halfLoadMax (meanLoad lead trail)
    saturated := saturated || Config.halfLoadMax < meanLoad lead trail
    mismatch := stripMismatch percent lead trail
    remote := false }

/-- The gain of the lead channel of a half (R35). -/
def leadGain (p : Params) : Half → Nat
  | .left => p.gain.ll
  | .right => p.gain.lr

/-- The gain of the trail channel of a half (R35). -/
def trailGain (p : Params) : Half → Nat
  | .left => p.gain.tl
  | .right => p.gain.tr

/-- The load computation of one local half, with the factors its vehicle latched (R35 to R41). -/
def halfLoad (p : Params) (factor correction : Nat) (h : HalfAxle) : HalfLoad :=
  let lead := stripLoad h.leadArea h.speed (leadGain p h.half) factor correction
  let trail := stripLoad h.trailArea h.speed (trailGain p h.half) factor correction
  halfLoadOf p.mismatchPct lead.1 trail.1 (h.saturated || lead.2 || trail.2)

/-! ## The axle -/

namespace Axle

/-- The halves present. -/
def halves (a : Axle) : List HalfLoad := a.left.toList ++ a.right.toList

/-- The sum of the half loads of the halves present (R42). -/
def loadSum (a : Axle) : Nat := (a.halves.map HalfLoad.load).sum

/-- The axle load, held at its limit (R42). -/
def load (a : Axle) : Nat := min Config.axleLoadMax a.loadSum

/-- The axle's saturated mark (R42). -/
def saturated (a : Axle) : Bool := a.halves.any HalfLoad.saturated || Config.axleLoadMax < a.loadSum

/-- The axle's mismatch mark (R42). -/
def mismatch (a : Axle) : Bool := a.halves.any HalfLoad.mismatch

/-- The straddled mark: the axle holds a remote half (R87, R102). -/
def straddled (a : Axle) : Bool := a.halves.any HalfLoad.remote

/-- The half of an axle. -/
def half (a : Axle) : Half → Option HalfLoad
  | .left => a.left
  | .right => a.right

/-- The axle with one half filled. -/
def fill (h : Half) (l : HalfLoad) (a : Axle) : Axle :=
  match h with
  | .left => { a with left := some l }
  | .right => { a with right := some l }

/-- The one half of a single-half axle. -/
def loneHalf (a : Axle) : Option (Half × HalfLoad) :=
  match a.left, a.right with
  | some l, none => some (.left, l)
  | none, some r => some (.right, r)
  | _, _ => none

/-- The axle lacks one half (R84). -/
def single (a : Axle) : Bool := a.loneHalf.isSome

/-- The entry of the axle in a vehicle record (R87). -/
def entry (a : Axle) : RecordAxle :=
  { load := a.load, left := a.left.isSome, right := a.right.isSome, reverse := a.direction = .reverse,
    saturated := a.saturated, mismatch := a.mismatch, straddled := a.straddled }

end Axle

/-- The one half of a single-half observation. -/
def Observation.loneHalf (o : Observation) : Option HalfAxle :=
  match o.left, o.right with
  | some l, none => some l
  | none, some r => some r
  | _, _ => none

/-- The axle that an observation becomes in a vehicle: its loads computed with the values the vehicle latched
(R35, R43). -/
def loadedAxle (p : Params) (v : Vehicle) (index : Nat) (o : Observation) : Axle :=
  { tag := v.nextTag, index := index, time := o.time, speed := o.speed, direction := o.direction
    left := o.left.map (halfLoad p v.latched.factor v.correction)
    right := o.right.map (halfLoad p v.latched.factor v.correction) }

/-! ## Temperature factor and band -/

/-- The factor between two points, or at the last one (R45, its last two cases), for a temperature at or above
the first of them. -/
def factorFrom (t : Int) : CurvePoint → List CurvePoint → Nat
  | a, [] => a.factor
  | a, b :: rest =>
    if b.temp ≤ t then factorFrom t b rest
    else ((a.factor : Int) +
      (((b.factor : Int) - a.factor) * (t - a.temp)).tdiv (b.temp - a.temp)).toNat

/-- The temperature factor F (R45). -/
def tempFactor (curve : List CurvePoint) (t : Int) : Nat :=
  match curve with
  | [] => 16384
  | a :: rest => if t ≤ a.temp then a.factor else factorFrom t a rest

/-- The quotient of R46, rounded toward minus infinity and clamped to 0..7. -/
def bandIndex (base : Int) (width : Nat) (t : Int) : Nat :=
  (clampInt 0 7 ((t - base).fdiv width)).toNat

/-- The temperature band (R46). -/
def tempBand (base : Int) (width : Nat) (t : Int) : Fin 8 := Fin.ofNat 8 (bandIndex base width t)

/-- The handover of an effective temperature (R47). -/
def handoverOf (p : Params) (t : Int) (source : Source) : Handover :=
  { temp := t, source := source, factor := tempFactor p.curve t,
    band := tempBand p.tempBase p.bandWidth t }

end Sys2Proof.Machine
end

