-- ==== Sys2Proof/Machine/Classing.lean ====
section
/-! DEFINITION. The summary of a completing vehicle (R84), classing and screening (chapter 07). -/
namespace Sys2Proof.Machine

/-- The spacing of R74, floored. -/
def spacingOf (speedA speedB : Nat) (timeA timeB : LocalTime) : Int :=
  (((speedA + speedB : Nat) : Int) * sdiff timeB timeA).fdiv 32768

/-- The recorded spacings of an axle list, each held at S_max (R84, step 2). -/
def recordedSpacings (maxSpacing : Nat) : List Axle → List Nat
  | a :: b :: rest =>
    min maxSpacing (spacingOf a.speed b.speed a.time b.time).toNat :: recordedSpacings maxSpacing (b :: rest)
  | _ => []

/-- The summary of a vehicle (R84). -/
structure Summary where
  gross : Nat
  spacings : List Nat
  wheelbase : Nat
  meanSpeed : Nat
  unsteady : Bool
  singleTrack : Bool
  deriving DecidableEq, Repr

/-- The speed changed too much between the first and the last axle (R84, step 5). -/
def isUnsteady (percent : Nat) (axles : List Axle) : Bool :=
  match axles.head?, axles.getLast? with
  | some a, some b => absDiff a.speed b.speed * 100 > percent * max a.speed b.speed
  | _, _ => false

/-- The first stage of completion (R84). -/
def summarize (p : Params) (axles : List Axle) : Summary :=
  let spacings := recordedSpacings p.maxSpacing axles
  { gross := (axles.map Axle.load).sum
    spacings := spacings
    wheelbase := spacings.sum
    meanSpeed := (axles.map Axle.speed).sum / axles.length
    unsteady := isUnsteady p.unsteadyPct axles
    singleTrack := axles.all (fun a => a.single && !a.straddled) }

/-! ## Classing -/

/-- The track condition holds (R118). -/
def Track.holds (t : Track) (singleTrack : Bool) : Bool :=
  match t with
  | .any => true
  | .singleTrack => singleTrack
  | .twoTrack => !singleTrack

/-- A spacing condition holds: the vehicle has that spacing and it lies in the range (R119). Spacing i stands at
place i − 1 of the list. -/
def SpacingCondition.holds (c : SpacingCondition) (spacings : List Nat) : Bool :=
  1 ≤ c.index &&
    match spacings[c.index - 1]? with
    | some x => c.least ≤ x && x ≤ c.greatest
    | none => false

/-- An entry matches (R118 to R120). -/
def ClassEntry.isMatch (e : ClassEntry) (axleCount : Nat) (sm : Summary) : Bool :=
  e.leastAxles ≤ axleCount && axleCount ≤ e.greatestAxles && e.track.holds sm.singleTrack &&
    (match e.gross with
      | some r => r.1 ≤ sm.gross && sm.gross ≤ r.2
      | none => true) &&
    e.conditions.all (fun c => c.holds sm.spacings)

/-- The matched entry: the first that matches (R120). -/
def matchedEntry (table : List ClassEntry) (axleCount : Nat) (sm : Summary) : Option ClassEntry :=
  table.find? (fun e => e.isMatch axleCount sm)

/-- The class code: 0 when no entry matches (R120). -/
def classCode (entry : Option ClassEntry) : Nat :=
  match entry with
  | some e => e.code
  | none => 0

/-! ## Screening -/

/-- A vehicle is eligible for screening (R122). -/
def eligible (p : Params) (flags : Flags) (sm : Summary) : Bool :=
  !flags.barsScreening && p.screenSpeed ≤ sm.meanSpeed

/-- The axle limit (R123). -/
def axleLimitOf (p : Params) (entry : Option ClassEntry) : Nat :=
  (entry.bind ClassEntry.axleLimit).getD p.siteAxleLimit

/-- The gross limit (R123). -/
def grossLimitOf (p : Params) (entry : Option ClassEntry) : Nat :=
  (entry.bind ClassEntry.grossLimit).getD p.siteGrossLimit

/-- A value is over its limit with the tolerance (R124). -/
def isOver (tolerance limit value : Nat) : Bool := value * 100 > limit * (100 + tolerance)

/-- The verdict of the two tests (R125). -/
def verdictOf (axleOver grossOver : Bool) : Verdict :=
  match axleOver, grossOver with
  | false, false => .clear
  | true, false => .axleOver
  | false, true => .grossOver
  | true, true => .bothOver

/-- Screening (R122 to R125). -/
def screen (p : Params) (entry : Option ClassEntry) (flags : Flags) (axles : List Axle) (sm : Summary) :
    Verdict :=
  if eligible p flags sm then
    verdictOf (axles.any (fun a => isOver p.tolerance (axleLimitOf p entry) a.load))
      (isOver p.tolerance (grossLimitOf p entry) sm.gross)
  else .notScreened

end Sys2Proof.Machine
end

