-- ==== Sys2Proof/Machine/Output.lean ====
section
/-! DEFINITION. Enforcement outputs (chapter 09): trigger scheduling, the trigger queue, the camera line, the overload
line, and the meanings of TRIGGER_DUE, PULSE_END and GAP_END. -/
namespace Sys2Proof.Machine

/-- The fire time of a vehicle's trigger (R146). -/
def fireTime (p : Params) (v : Vehicle) : LocalTime :=
  later v.lastTime ((p.spacing + p.camera) * 16384 / v.lastSpeed)

/-- A trigger enters after every entry whose fire time is at or before its own (R148). R151 speaks of a trigger that
enters before a head due at the same instant and becomes the head; a late trigger has the present instant as its fire
time (R147) and so stands behind every due entry: R147 and R148 are followed, THE MODEL'S CHOICE
(notes/assumptions/44). -/
def triggerInsert (t : LocalTime) (q : List LocalTime) : List LocalTime :=
  q.takeWhile (fun u => reached t u) ++ t :: q.dropWhile (fun u => reached t u)

namespace State

/-- The trigger stage of completion (R146, R147, R149): the vehicle's flags after it, and the state. A late trigger takes
the present instant as its fire time, so it never becomes the head before a due entry, as R151 has it: THE MODEL'S
CHOICE (notes/assumptions/44). -/
def scheduleTrigger (v : Vehicle) (flags : Flags) (verdict : Verdict) (s : State) : Flags × State :=
  if verdict.isOver && s.control.params.camera != 0 then
    if Config.triggerCapacity ≤ s.output.triggers.length then
      ({ flags with triggerLost := true }, s.bump .triggersLost)
    else
      let fire := fireTime s.control.params v
      let late : Bool := sdiff fire s.localTime ≤ 0
      let t := if late then s.localTime else fire
      ({ flags with lateTrigger := flags.lateTrigger || late },
        { s with output := { s.output with triggers := triggerInsert t s.output.triggers } })
  else (flags, s)

/-- The overload line takes a verdict by its mode (R153, R154). -/
def overloadAfter (mode : OverloadMode) (verdict : Verdict) (line : Bool) : Bool :=
  match mode with
  | .off => false
  | .follow => if verdict.isOver then true else if verdict = .clear then false else line
  | .latch => line || verdict.isOver

/-- The overload stage of completion (R153, R154). -/
def takeVerdict (verdict : Verdict) (s : State) : State :=
  { s with output := { s.output with
      overload := overloadAfter s.control.params.overloadMode verdict s.output.overload } }

/-- The head of the trigger queue is due (R151). -/
def headDue (s : State) : Bool :=
  match s.output.triggers with
  | t :: _ => reached s.localTime t
  | [] => false

/-- The head trigger leaves the queue and starts a camera pulse (R150, R151). -/
def startPulse (s : State) : State :=
  { s with output := { s.output with
      triggers := s.output.triggers.tail, camera := .pulse,
      cameraEnd := some (later s.localTime s.control.params.pulseTicks) } }

/-- A trigger comes due with the camera line IDLE (R151). -/
def triggerIsDue (s : State) : Bool := s.output.camera = .idle && s.headDue

/-- The pulse end time has been reached (R150). -/
def pulseEndIsDue (s : State) : Bool := s.output.camera = .pulse && dueReached s.localTime s.output.cameraEnd

/-- The gap end time has been reached (R151). -/
def gapEndIsDue (s : State) : Bool := s.output.camera = .gap && dueReached s.localTime s.output.cameraEnd

/-- The line is released and the state becomes GAP, its end G_t after the pulse's end time (R150). -/
def endPulse (s : State) : State :=
  { s with output := { s.output with
      camera := .gap, cameraEnd := s.output.cameraEnd.map (fun t => later t s.control.params.gapTicks) } }

/-- The gap ends: a due head starts a pulse, else the line becomes IDLE (R150, R151). -/
def endGap (s : State) : State :=
  if s.headDue then s.startPulse
  else { s with output := { s.output with camera := .idle, cameraEnd := none } }

end State

/-- TRIGGER_DUE (R151). -/
def execTriggerDue (s : State) : Host.Outcome State Fault Refusal :=
  .next (if s.triggerIsDue then s.startPulse else s)

/-- PULSE_END (R150). -/
def execPulseEnd (s : State) : Host.Outcome State Fault Refusal :=
  .next (if s.pulseEndIsDue then s.endPulse else s)

/-- GAP_END (R151). -/
def execGapEnd (s : State) : Host.Outcome State Fault Refusal :=
  .next (if s.gapEndIsDue then s.endGap else s)

end Sys2Proof.Machine
end

