-- ==== Sys2Proof/Machine/Drift.lean ====
section
/-! DEFINITION. The drift tracker and the correction store (chapter 08), and the meanings of ERASE_READY,
ERASE_TIMEOUT, PROGRAM_READY, PROGRAM_TIMEOUT and VERIFY. -/
namespace Sys2Proof.Machine

/-! ## Reference samples and updates -/

/-- The first axle of a reference sample: both halves present, its load between N/2 and 2N (R131). -/
def isReferenceAxle (p : Params) (a : Axle) : Bool :=
  a.left.isSome && a.right.isSome && p.nominal ≤ 2 * a.load && a.load ≤ 2 * p.nominal

/-- The completing vehicle is a reference sample (R131); `flags` are its flags when the drift stage begins. -/
def isReference (p : Params) (axles : List Axle) (flags : Flags) (cls : Nat) (sm : Summary) : Bool :=
  p.tracking && cls == p.refClass && !flags.barsReference &&
    (p.refSpeed.1 ≤ sm.meanSpeed && sm.meanSpeed ≤ p.refSpeed.2) &&
    (p.refGross.1 ≤ sm.gross && sm.gross ≤ p.refGross.2) &&
    (match axles.head? with
      | some a => isReferenceAxle p a
      | none => false)

/-- The first-axle load taken back to its value before band correction (R132). -/
def normalisedLoad (load correction : Nat) : Nat := load * 4096 / correction

/-- The target correction of an update, rounded half up (R133, step 1). -/
def targetCorrection (nominal samples sum : Nat) : Nat :=
  (2 * 4096 * nominal * samples + sum) / (2 * sum)

/-- The new correction of an update (R133, steps 1 to 3). -/
def updatedCorrection (p : Params) (old sum : Nat) : Nat :=
  clampNat 3686 4506 (clampNat (old - p.maxStep) (old + p.maxStep) (targetCorrection p.nominal p.samples sum))

/-- A band with one more reference sample (R132): the band, and whether its update has come (R133). -/
def Band.sampled (p : Params) (w : Nat) (b : Band) : Band × Bool :=
  if p.samples ≤ b.count + 1 then
    ({ correction := updatedCorrection p b.correction (b.sum + w), count := 0, sum := 0,
       updates := min Config.counterMax (b.updates + 1) }, true)
  else ({ b with count := b.count + 1, sum := b.sum + w }, false)

/-! ## The correction store -/

namespace Drift

/-- The record of the corrections, update counts and save count as they stand, the save count one more (R135). -/
def toSave (d : Drift) : Correction :=
  { corrections := (d.bands.map Band.correction).toList, updates := (d.bands.map Band.updates).toList,
    saveCount := min Config.counterMax (d.saveCount + 1) }

/-- A save begins: the snapshot is taken, write enable and sector erase go out at the next sample instant, and the
state becomes ERASING (R137). The status is read at each sample instant in ERASING, the first time behind the erase
itself: THE MODEL'S CHOICE (notes/assumptions/32). -/
def beginSave (now : LocalTime) (d : Drift) : Drift :=
  { d with store := .erasing, snapshot := some d.toSave,
           phaseDue := some (later (nextSampleInstant now) 32768), phaseAt := nextSampleInstant now,
           port := [.writeEnable, .sectorErase sectorSize, .readStatus] }

/-- A save request (R136). -/
def requestSave (now : LocalTime) (d : Drift) : Drift :=
  match d.store with
  | .idle => d.beginSave now
  | .erasing | .programming | .verifying => { d with again := true }
  | .fault => d

/-- The store enters FAULT (R140). -/
def enterFault (d : Drift) : Drift :=
  { d with store := .fault, again := false, snapshot := none, phaseDue := none }

/-- The erase has ended: write enable and page program go out, with the first status read behind them
(notes/assumptions/32), and the state becomes PROGRAMMING (R138). -/
def beginProgram (now : LocalTime) (d : Drift) : Drift :=
  { d with store := .programming, phaseDue := some (later (nextSampleInstant now) 819),
           phaseAt := nextSampleInstant now,
           port := [.writeEnable, .pageProgram sectorSize ((d.snapshot.map Correction.bytes).getD []),
             .readStatus] }

/-- The program has ended: the record is read back, and the state becomes VERIFYING (R138, R139). The phase due time
stands until the save completes or the store enters FAULT (R139, R140). -/
def beginVerify (now : LocalTime) (d : Drift) : Drift :=
  { d with store := .verifying, phaseAt := nextSampleInstant now, port := [.readData sectorSize correctionSize] }

/-- The read-back is compared with the snapshot (R139). -/
def verified (now : LocalTime) (readBack : List Byte) (d : Drift) : Drift :=
  match d.snapshot with
  | some snap =>
    if readBack = snap.bytes then
      let done : Drift :=
        { d with store := .idle, snapshot := none, phaseDue := none, saveCount := snap.saveCount }
      if d.again then { done with again := false }.beginSave now else done
    else d.enterFault
  | none => d.enterFault

end Drift

namespace State

/-- The drift stage of completion (R131 to R133). -/
def driftStage (v : Vehicle) (flags : Flags) (cls : Nat) (sm : Summary) (s : State) : State :=
  if isReference s.control.params v.axles flags cls sm then
    let w := normalisedLoad ((v.axles.head?.map Axle.load).getD 0) v.correction
    let r := (s.drift.bands.get v.latched.band).sampled s.control.params w
    let d := { s.drift with bands := s.drift.bands.set v.latched.band.val r.1 v.latched.band.isLt }
    { s with drift := if r.2 then d.requestSave s.localTime else d }
  else s

/-- A phase of the store is in progress, and its due time has come at a sample instant (R137, R138). -/
def phaseOver (s : State) (phase : StoreState) : Bool :=
  s.drift.store = phase && sampleInstant s.localTime && dueReached s.localTime s.drift.phaseDue

end State

/-- ERASE_READY (R137, R138): the result of the status read of the sample instant before, the first of them the one sent
with the erase (notes/assumptions/32). -/
def execEraseReady (s : State) : Host.Outcome State Fault Refusal :=
  .next (if s.drift.store = .erasing && s.answered then { s with drift := s.drift.beginProgram s.localTime } else s)

/-- ERASE_TIMEOUT (R137, R140). -/
def execEraseTimeout (s : State) : Host.Outcome State Fault Refusal :=
  .next (if s.phaseOver .erasing then { s with drift := s.drift.enterFault } else s)

/-- PROGRAM_READY (R138): the result of the status read of the sample instant before, the first of them the one sent with
the program (notes/assumptions/32). -/
def execProgramReady (s : State) : Host.Outcome State Fault Refusal :=
  .next (if s.drift.store = .programming && s.answered then { s with drift := s.drift.beginVerify s.localTime } else s)

/-- PROGRAM_TIMEOUT (R138, R140). -/
def execProgramTimeout (s : State) : Host.Outcome State Fault Refusal :=
  .next (if s.phaseOver .programming then { s with drift := s.drift.enterFault } else s)

/-- VERIFY (R139): the result of the read of the record, at the sample instant after it was sent (R137). -/
def execVerify (readBack : List Byte) (s : State) : Host.Outcome State Fault Refusal :=
  .next (if s.drift.store = .verifying && s.readEnds then
      { s with drift := s.drift.verified s.localTime readBack }
    else s)

end Sys2Proof.Machine
end

