-- ==== Sys2Proof/Machine/Completion.lean ====
section
/-! DEFINITION. The completion operation (R84 to R87): the summary, classing and screening, the trigger and overload
stages, the drift stage, the record. -/
namespace Sys2Proof.Machine

namespace Vehicle

/-- The vehicle's flags after the summary (R84, steps 5 and 6). -/
def summaryFlags (v : Vehicle) (sm : Summary) : Flags :=
  { v.flags with unsteady := v.flags.unsteady || sm.unsteady,
                 singleTrack := v.flags.singleTrack || sm.singleTrack }

/-- The vehicle record (R86, R87). -/
def record (p : Params) (v : Vehicle) (flags : Flags) (cls : Nat) (verdict : Verdict) (sm : Summary) : Record :=
  { lane := p.lane
    number := v.number
    firstTime := (v.axles.head?.map Axle.time).getD 0
    classCode := cls
    verdict := verdict
    flags := flags
    meanSpeed := sm.meanSpeed
    gross := sm.gross
    wheelbase := sm.wheelbase
    temp := v.latched.temp
    source := v.latched.source
    band := v.latched.band
    correction := v.correction
    axles := v.axles.map Axle.entry
    spacings := sm.spacings }

end Vehicle

namespace State

/-- The completion operation on a vehicle that has left its slot (R84, R85). -/
def complete (v : Vehicle) (s : State) : State :=
  let p := s.control.params
  let sm := summarize p v.axles
  let flags := v.summaryFlags sm
  let entry := matchedEntry p.classTable v.axles.length sm
  let verdict := screen p entry flags v.axles sm
  let t := s.scheduleTrigger v flags verdict
  let s' := (t.2.takeVerdict verdict).driftStage v t.1 (classCode entry) sm
  (s'.bump .recordsProduced).produce (.vehicle (v.record p t.1 (classCode entry) verdict sm))

end State
end Sys2Proof.Machine
end

