-- ==== Sys2Proof/Machine/Boundary.lean ====
section
/-! DEFINITION. Lane boundary straddles (chapter 06): the edge list, the remote lists, matching, ownership, transfers,
the closing slot, and the meanings of EDGE_WAIT_EXPIRY, REMOTE_NOTICE_EXPIRY, YIELD_HOLD_EXPIRY, HALF_AXLE,
TRANSFER, YIELD_CLOSED and ANNOUNCE. -/
namespace Sys2Proof.Machine

/-! ## Vehicles -/

namespace Vehicle

/-- The owner close is met (R108). -/
def ownerCloseMet (v : Vehicle) : Bool := v.gapDueMark && (v.yieldClosed || v.flags.partnerLost)

/-- The vehicle takes PARTNER-LOST. -/
def takePartnerLost (v : Vehicle) : Vehicle := { v with flags := { v.flags with partnerLost := true } }

/-- The vehicle's mismatch and saturated flags with an axle's marks (R83). -/
def takeMarks (a : Axle) (v : Vehicle) : Vehicle :=
  { v with flags := { v.flags with mismatch := v.flags.mismatch || a.mismatch,
                                   saturated := v.flags.saturated || a.saturated } }

/-- The axle of a tag gets a half, its marks are tested and the vehicle takes STRADDLE (R102, R105, R106). -/
def fillAxle (a : Axle) (h : Half) (l : HalfLoad) (v : Vehicle) : Vehicle :=
  let w := { v with axles := v.axles.map (fun (b : Axle) => if b.tag = a.tag then b.fill h l else b),
                    flags := { v.flags with straddle := true } }
  w.takeMarks (a.fill h l)

/-- The axle with this time and speed becomes the latest: t_last, v_last and the gap due time (R81). -/
def becomeLatest (p : Params) (time : LocalTime) (speed : Nat) (v : Vehicle) : Vehicle :=
  { v with lastTime := time, lastSpeed := speed,
           gapDue := later time ((p.maxSpacing + p.spacing) * 16384 / speed) }

/-- The gap due mark is set; an OWNER vehicle that still waits gets its hold due time (R82, R108). -/
def takeGapMark (p : Params) (now : LocalTime) (v : Vehicle) : Vehicle :=
  { v with gapDueMark := true,
           holdDue := if v.pairing = .owner && !v.yieldClosed && !v.flags.partnerLost
             then some (later now p.yieldHoldTicks) else v.holdDue }

/-- How many axles of the list have a time at or before `t`, from its beginning (R78, R105). -/
def placeOf (t : LocalTime) (v : Vehicle) : Nat := (v.axles.takeWhile (fun a => reached t a.time)).length

/-- An axle enters the list after its first `n` axles. -/
def insertAxle (n : Nat) (a : Axle) (v : Vehicle) : Vehicle :=
  { v with axles := v.axles.take n ++ a :: v.axles.drop n, nextTag := v.nextTag + 1 }

end Vehicle

namespace State

/-! ## Edge list -/

/-- The entries of a vehicle in the edge list. -/
def edgesOf (s : State) (number : Nat) : List EdgeEntry :=
  s.boundary.edges.filter (fun e => e.vehicle == number)

/-- The vehicle has an edge axle awaiting a match (R73). -/
def hasEdge (s : State) (number : Nat) : Bool := !(s.edgesOf number).isEmpty

/-- The edge list without the entry of an axle. -/
def dropEdge (number tag : Nat) (s : State) : State :=
  { s with boundary := { s.boundary with
      edges := s.boundary.edges.filter (fun e => !(e.vehicle == number && e.tag == tag)) } }

/-- A TRANSFER of an axle is formed by its YIELDED vehicle, in RUNNING (R103). -/
def forwardAxle (number : Nat) (a : Axle) (s : State) : State :=
  match s.control.station, s.vehicle number with
  | .running, some v =>
    (s.updateVehicle number (fun w => { w with forwarded := w.forwarded + 1 })).produce
      (.transfer v.peer v.peerVehicle a.time a.speed (a.left.map HalfLoad.load) (a.right.map HalfLoad.load)
        a.index a.saturated a.mismatch)
  | _, _ => s

/-- An edge axle resolves as unmatched (R100); the close of its vehicle is tested by the caller. -/
def resolveEdge (e : EdgeEntry) (s : State) : State :=
  let s := s.dropEdge e.vehicle e.tag
  match s.vehicle e.vehicle with
  | none => s
  | some v =>
    if v.pairing = .yielded then
      match v.axles.find? (fun a => a.tag == e.tag) with
      | some a => s.forwardAxle v.number a
      | none => s
    else
      (s.updateVehicle v.number
        (fun w => { w with flags := { w.flags with edgeUnmatched := true } })).bump .edgesUnmatched

/-- Several edge axles of one vehicle resolve as unmatched at one instant (R100, R101, R108, R110, R111): in the order of
the edge list, in which a YIELDED vehicle's TRANSFER frames then stand; the manual gives no order, THE MODEL'S CHOICE
(notes/assumptions/43). -/
def resolveEdges (l : List EdgeEntry) (s : State) : State := l.foldl (fun s e => s.resolveEdge e) s

/-! ## The closing slot -/

/-- A YIELDED vehicle that has left its slot ends as yielded (R104). -/
def endYielded (v : Vehicle) (s : State) : State :=
  (s.produce (.yieldClosed v.peer v.peerVehicle v.forwarded)).bump .vehiclesYielded

/-- The close of the closing vehicle is tested (R109). -/
def closeTest (s : State) : State :=
  match s.assembler.closingVehicle with
  | none => s
  | some v =>
    if s.hasEdge v.number then s
    else
      match v.pairing with
      | .unpaired => (s.setSlot .closingSlot none).complete v
      | .owner => if v.ownerCloseMet then (s.setSlot .closingSlot none).complete v else s
      | .yielded => if v.gapDueMark then (s.setSlot .closingSlot none).endYielded v else s

/-- The closing vehicle is ended at once because another must enter the slot (R110). -/
def endEarlier (w : Vehicle) (s : State) : State :=
  let s := s.resolveEdges (s.edgesOf w.number)
  match s.assembler.closingVehicle with
  | none => s
  | some w =>
    let s := s.setSlot .closingSlot none
    match w.pairing with
    | .yielded => s.endYielded w
    | .unpaired => s.complete w
    | .owner => s.complete (if w.ownerCloseMet then w else w.takePartnerLost)

/-- A held vehicle that has left the open slot enters the closing slot (R70, R110). -/
def enterClosing (v : Vehicle) (s : State) : State :=
  let s := match s.assembler.closingVehicle with
    | none => s
    | some w => s.endEarlier w
  s.setSlot .closingSlot (some v)

/-- The open vehicle ends: it ends as yielded, is held, or completes (R73). -/
def endOpen (s : State) : State :=
  match s.assembler.openVehicle with
  | none => s
  | some v =>
    let s := s.setSlot .openSlot none
    let edge := s.hasEdge v.number
    match v.pairing with
    | .yielded => if v.gapDueMark && !edge then s.endYielded v else s.enterClosing v
    | .owner => if edge || !v.ownerCloseMet then s.enterClosing v else s.complete v
    | .unpaired => if edge then s.enterClosing v else s.complete v

/-! ## Matching -/

/-- A local edge axle and a remote notice of its side match (R97). -/
def edgeMatches (s : State) (e : EdgeEntry) (n : RemoteNotice) : Bool :=
  (sdiff e.time n.time).natAbs ≤ s.control.params.matchWindow &&
    absDiff e.speed n.speed * 100 ≤ s.control.params.speedPct * max e.speed n.speed &&
    match s.vehicle e.vehicle with
    | none => false
    | some v => v.pairing = .unpaired || (v.peer == n.source && v.peerVehicle == n.vehicle)

/-- The distance in time of an edge axle and a notice. -/
def edgeDistance (e : EdgeEntry) (n : RemoteNotice) : Nat := (sdiff e.time n.time).natAbs

/-- The notice of its side that a new edge axle takes (R98). -/
def noticeFor (s : State) (e : EdgeEntry) : Option RemoteNotice :=
  nearest (fun n => edgeDistance e n) ((s.boundary.remote.get e.side).filter (fun n => s.edgeMatches e n))

/-- The edge axle that an accepted notice of a side takes (R99). -/
def edgeFor (s : State) (side : Half) (n : RemoteNotice) : Option EdgeEntry :=
  nearest (fun e => edgeDistance e n)
    (s.boundary.edges.filter (fun e => e.side = side && s.edgeMatches e n))

/-- The remote list of a side changes. -/
def setRemote (side : Half) (l : List RemoteNotice) (s : State) : State :=
  { s with boundary := { s.boundary with remote := s.boundary.remote.set side l } }

/-- This station's notice wins the ownership (R101). -/
def localOwns (own : Nat) (e : EdgeEntry) (n : RemoteNotice) : Bool :=
  if e.index ≠ n.index then n.index < e.index
  else if e.load ≠ n.load then n.load < e.load
  else own < n.source

/-- The remote half is added to the matched axle (R102). -/
def addRemoteHalf (e : EdgeEntry) (n : RemoteNotice) (s : State) : State :=
  s.updateVehicle e.vehicle (fun v =>
    match v.axles.find? (fun a => a.tag == e.tag) with
    | none => v
    | some a => v.fillAxle a e.side.other
        { load := n.load, saturated := n.saturated, mismatch := n.mismatch, remote := true })

/-- The first match decides the pairing of the vehicle (R101, R108). -/
def pairVehicle (owner : Bool) (n : RemoteNotice) (now : LocalTime) (p : Params) (v : Vehicle) : Vehicle :=
  { v with pairing := if owner then .owner else .yielded, peer := n.source, peerVehicle := n.vehicle,
           holdDue := if owner && v.gapDueMark then some (later now p.yieldHoldTicks) else v.holdDue }

/-- A match is made (R98, R99): the entry leaves the edge list; the first match of a vehicle decides its ownership
and resolves its entries on the other side; an owner adds the remote half, a yielder forwards at its first match
the axles no match covers and that do not wait in the edge list (R101 to R103). The notice has left its list. -/
def makeMatch (e : EdgeEntry) (n : RemoteNotice) (s : State) : State :=
  let s := s.dropEdge e.vehicle e.tag
  match s.vehicle e.vehicle with
  | none => s
  | some v =>
    match v.pairing with
    | .owner => s.addRemoteHalf e n
    | .yielded => s
    | .unpaired =>
      let waiting := (s.edgesOf v.number).map EdgeEntry.tag
      let owner := localOwns s.control.number e n
      let s := s.updateVehicle v.number (pairVehicle owner n s.localTime s.control.params)
      let s := s.resolveEdges ((s.edgesOf v.number).filter (fun d => d.side ≠ e.side))
      if owner then s.addRemoteHalf e n
      else (v.axles.filter (fun a => a.tag ≠ e.tag && !waiting.contains a.tag)).foldl
        (fun s a => s.forwardAxle v.number a) s

/-- In a full edge list the oldest entry resolves as unmatched (R91, R100). -/
def edgeRoom (s : State) : State :=
  match s.boundary.edges with
  | oldest :: _ =>
    if Config.edgeCapacity ≤ s.boundary.edges.length then (s.resolveEdge oldest).closeTest else s
  | [] => s

/-- A new edge axle joins the edge list, queues its notice and is matched (R91, R92, R98). -/
def admitEdge (v : Vehicle) (a : Axle) (side : Half) (l : HalfLoad) (s : State) : State :=
  let s := s.edgeRoom
  let e : EdgeEntry :=
    { side := side, vehicle := v.number, tag := a.tag, time := a.time, speed := a.speed, load := l.load,
      index := a.index, saturated := l.saturated, mismatch := l.mismatch, joined := s.localTime }
  let s := { s with boundary := { s.boundary with edges := s.boundary.edges ++ [e] } }
  let s := s.produce (.halfAxle side a.time a.speed l.load a.index v.number l.saturated l.mismatch)
  match s.noticeFor e with
  | none => s
  | some n => ((s.setRemote side ((s.boundary.remote.get side).erase n)).makeMatch e n).closeTest

/-! ## Notices from peers -/

/-- The side of this lane to which a HALF-AXLE of a source and a side belongs (R95). -/
def acceptedSide (p : Params) (source : Nat) (side : Option Half) : Option Half :=
  match side with
  | some .left => if source = p.neighbour.right then some .right else none
  | some .right => if source = p.neighbour.left then some .left else none
  | none => none

/-- Some vehicle of this station is YIELDED to the notice's source and yields to its vehicle (R95). -/
def yieldsTo (s : State) (n : RemoteNotice) : Bool :=
  [s.assembler.openVehicle, s.assembler.closingVehicle].any (fun o => o.any (fun v =>
    v.pairing = .yielded && v.peer == n.source && v.peerVehicle == n.vehicle))

/-- A notice joins the tail of its side's remote list (R96). -/
def keepNotice (side : Half) (n : RemoteNotice) (s : State) : State :=
  let l := s.boundary.remote.get side
  if Config.remoteCapacity ≤ l.length then (s.setRemote side (l.tail ++ [n])).bump .noticesExpired
  else s.setRemote side (l ++ [n])

/-- The local time of a remote event: the frame's timestamp less the carried age (R94). -/
def eventTime (stamp : LocalTime) (age : Nat) : LocalTime := stamp - BitVec.ofNat 32 age

/-- The notice of a HALF-AXLE frame, on this station's clock (R94). -/
def noticeOf (f : RxFrame) (now : LocalTime) : RemoteNotice :=
  let h := halfAxleFields f.payload
  { source := f.source, time := eventTime f.stamp h.age, speed := h.speed, load := h.load, index := h.index,
    vehicle := h.vehicle, saturated := h.saturated, mismatch := h.mismatch, accepted := now }

/-- A HALF-AXLE dispatched to the boundary unit (R95, R99). -/
def takeHalfAxle (f : RxFrame) (s : State) : State :=
  match acceptedSide s.control.params f.source (halfAxleFields f.payload).side with
  | none => s
  | some side =>
    let n := noticeOf f s.localTime
    match s.edgeFor side n with
    | some e => (s.makeMatch e n).closeTest
    | none => if s.yieldsTo n then s else s.keepNotice side n

/-- The vehicle of a slot takes transfers from a source that name it (R105, notes/assumptions/11). -/
def takesTransfers (source number : Nat) (v : Vehicle) : Bool :=
  v.pairing = .owner && v.peer == source && v.number == number && !v.flags.partnerLost

/-- The vehicle that a TRANSFER or YIELD-CLOSED of a source goes to (R105, R107). -/
def ownerFor (s : State) (source number : Nat) : Option (Slot × Vehicle) :=
  match s.assembler.openVehicle.filter (takesTransfers source number),
      s.assembler.closingVehicle.filter (takesTransfers source number) with
  | some v, _ => some (.openSlot, v)
  | none, some v => some (.closingSlot, v)
  | none, none => none

/-- The half load of a transferred half, with the transfer's marks. -/
def transferHalf (t : TransferFields) (load : Nat) : HalfLoad :=
  { load := load, saturated := t.saturated, mismatch := t.mismatch, remote := true }

/-- The one half a transfer carries, when it carries one. -/
def transferLone (t : TransferFields) : Option (Half × Nat) :=
  match t.left, t.right with
  | some l, none => some (.left, l)
  | none, some r => some (.right, r)
  | _, _ => none

/-- Two local times lie within K of each other. -/
def withinK (p : Params) (a b : LocalTime) : Bool := (sdiff a b).natAbs ≤ p.matchWindow

/-- The local single-half axle that a transferred half merges into (R105, first case). -/
def mergeTarget (p : Params) (v : Vehicle) (time : LocalTime) (h : Half) : Option Axle :=
  nearest (fun a => (sdiff a.time time).natAbs) (v.axles.filter (fun a =>
    withinK p a.time time &&
      match a.loneHalf with
      | some (g, l) => g = h.other && !l.remote
      | none => false))

/-- A transferred axle is inserted in order of axle time (R105, last case). -/
def insertTransfer (p : Params) (t : TransferFields) (time : LocalTime) (v : Vehicle) : Vehicle :=
  let n := v.placeOf time
  let a : Axle :=
    { tag := v.nextTag, index := n + 1, time := time, speed := t.speed, direction := v.direction,
      left := t.left.map (transferHalf t), right := t.right.map (transferHalf t) }
  let w := (v.insertAxle n a).takeMarks a
  let w := { w with flags := { w.flags with straddle := true } }
  if 0 < sdiff time v.lastTime then w.becomeLatest p time t.speed else w

/-- A TRANSFER taken by a vehicle: the first case of R105 that applies. The vehicle has counted it. -/
def mergeTransfer (slot : Slot) (t : TransferFields) (time : LocalTime) (v : Vehicle) (s : State) : State :=
  let p := s.control.params
  let target := match transferLone t with
    | some (h, load) => (mergeTarget p v time h).map (fun a => (h, load, a))
    | none => none
  match target with
  | some (h, load, a) =>
    ((s.setSlot slot (some (v.fillAxle a h (transferHalf t load)))).dropEdge v.number a.tag).closeTest
  | none =>
    if (transferLone t).isSome && v.axles.any (fun a => a.straddled && withinK p a.time time) then
      (s.setSlot slot (some v)).bump .lateTransfers
    else if Config.axleCapacity ≤ v.axles.length then
      s.setSlot slot (some { v with flags := { v.flags with truncated := true } })
    else s.setSlot slot (some (insertTransfer p t time v))

/-- A TRANSFER dispatched to the boundary unit (R105). -/
def takeTransfer (f : RxFrame) (s : State) : State :=
  let t := transferFields f.payload
  if t.owner ≠ s.control.number then s
  else if t.speed < 1000 || 70000 < t.speed || (t.left.isNone && t.right.isNone) then
    s.bump .framesDiscarded
  else
    match s.ownerFor f.source t.vehicle with
    | none => s.bump .lateTransfers
    | some (slot, v) =>
      s.mergeTransfer slot t (eventTime f.stamp t.age) { v with received := min 255 (v.received + 1) }

/-- A YIELD-CLOSED dispatched to the boundary unit (R107). -/
def takeYieldClosed (f : RxFrame) (s : State) : State :=
  let y := yieldFields f.payload
  if y.owner ≠ s.control.number then s
  else
    match s.ownerFor f.source y.vehicle with
    | none => s
    | some (slot, v) =>
      (s.setSlot slot (some { v with
        yieldClosed := true,
        flags := { v.flags with incomplete := v.flags.incomplete || v.received < y.forwarded } })).closeTest

/-- A partner has restarted: a vehicle paired with it loses its partner (R111). -/
def losePartner (v : Vehicle) : Vehicle :=
  if v.pairing = .yielded then
    { v.takePartnerLost with pairing := .unpaired, peer := 0, peerVehicle := 0, forwarded := 0 }
  else v.takePartnerLost

/-- The vehicle of a slot, when station `j` is its peer and it carries no PARTNER-LOST, loses its partner, and its
edge entries resolve as unmatched (R111). -/
def partnerRestart (slot : Slot) (j : Nat) (s : State) : State :=
  match s.vehicleIn slot with
  | none => s
  | some v =>
    if v.pairing ≠ .unpaired ∧ v.peer = j ∧ v.flags.partnerLost = false then
      let s := s.setSlot slot (some (losePartner v))
      s.resolveEdges (s.edgesOf v.number)
    else s

/-- An ANNOUNCE of station `j` dispatched to the boundary unit (R111). -/
def takeAnnounce (j : Nat) (s : State) : State :=
  let s := (s.partnerRestart .closingSlot j).partnerRestart .openSlot j
  let keep := fun (l : List RemoteNotice) => l.filter (fun n => n.source != j)
  { s with boundary := { s.boundary with
      remote := ⟨keep s.boundary.remote.left, keep s.boundary.remote.right⟩ } }.closeTest

/-! ## Waits -/

/-- The first edge entry whose wait has passed W_s (R91). Where the waits of several entries, of one vehicle or of the
open and the closing one, pass W_s on one sample instant, the entry that stands first in the edge list, which joined
first, resolves first, by a command of its own; the manual gives no order, THE MODEL'S CHOICE (notes/assumptions/45). -/
def expiredEdge (s : State) : Option EdgeEntry :=
  if s.measuringSample then
    s.boundary.edges.find? (fun e => sdiff s.localTime e.joined > s.control.params.edgeWaitTicks)
  else none

/-- The first notice of a side whose wait has passed W_s (R96). -/
def expiredNotice (s : State) (side : Half) : Option RemoteNotice :=
  if s.measuringSample then
    (s.boundary.remote.get side).find? (fun n => sdiff s.localTime n.accepted > s.control.params.edgeWaitTicks)
  else none

/-- The vehicle of a slot, when its yield hold has run out (R108). -/
def expiredHold (s : State) (slot : Slot) : Option Vehicle :=
  if s.measuringSample then
    (s.vehicleIn slot).filter (fun v =>
      v.pairing = .owner && !v.yieldClosed && !v.flags.partnerLost && dueReached s.localTime v.holdDue)
  else none

/-- The yield hold of the vehicle of a slot runs out (R108). -/
def endHold (slot : Slot) (v : Vehicle) (s : State) : State :=
  let s := s.setSlot slot (some v.takePartnerLost)
  (s.resolveEdges (s.edgesOf v.number)).closeTest

end State

/-! ## Meanings -/

/-- EDGE_WAIT_EXPIRY (R91, R100). -/
def execEdgeWaitExpiry (s : State) : Host.Outcome State Fault Refusal :=
  match s.expiredEdge with
  | some e => .next (s.resolveEdge e).closeTest
  | none => .next s

/-- REMOTE_NOTICE_EXPIRY (R96). -/
def execRemoteNoticeExpiry (side : Half) (s : State) : Host.Outcome State Fault Refusal :=
  match s.expiredNotice side with
  | some n => .next ((s.setRemote side ((s.boundary.remote.get side).erase n)).bump .noticesExpired)
  | none => .next s

/-- YIELD_HOLD_EXPIRY (R108). -/
def execYieldHoldExpiry (slot : Slot) (s : State) : Host.Outcome State Fault Refusal :=
  match s.expiredHold slot with
  | some v => .next (s.endHold slot v)
  | none => .next s

/-- HALF_AXLE (R95): taken from the receive queue; without effect in a station that does not measure (R112). -/
def execHalfAxle (s : State) : Host.Outcome State Fault Refusal :=
  match s.headOf .halfAxle with
  | some f => .next (if s.measuring then s.dispatched.takeHalfAxle f else s.dispatched)
  | none => .next s

/-- TRANSFER (R105); without effect in a station that does not measure (R112). -/
def execTransfer (s : State) : Host.Outcome State Fault Refusal :=
  match s.headOf .transfer with
  | some f => .next (if s.measuring then s.dispatched.takeTransfer f else s.dispatched)
  | none => .next s

/-- YIELD_CLOSED (R107); without effect in a station that does not measure (R112). -/
def execYieldClosed (s : State) : Host.Outcome State Fault Refusal :=
  match s.headOf .yieldClosed with
  | some f => .next (if s.measuring then s.dispatched.takeYieldClosed f else s.dispatched)
  | none => .next s

/-- ANNOUNCE (R111); without effect in a station that does not measure (R112). -/
def execAnnounce (s : State) : Host.Outcome State Fault Refusal :=
  match s.headOf .announce with
  | some f => .next (if s.measuring then s.dispatched.takeAnnounce f.source else s.dispatched)
  | none => .next s

end Sys2Proof.Machine
end

