-- ==== Sys2Proof/Machine/Assembly.lean ====
section
/-! DEFINITION. Vehicle assembly (chapter 05): opening, joining, late axles, the admission of an axle, the loop and the
gap timer, and the meanings of LOOP_TRANSITION and GAP_TIMER. -/
namespace Sys2Proof.Machine

/-! ## Opening and placing -/

/-- The vehicle that an observation opens, before its first axle is placed (R71, R72, R79). -/
def newVehicle (s : State) (o : Observation) (continuation : Bool) : Vehicle :=
  let h := s.assembler.handover
  { number := (s.assembler.lastNumber + 1) % 65536
    pairing := .unpaired, peer := 0, peerVehicle := 0, yieldClosed := false, received := 0, forwarded := 0,
    holdDue := none
    direction := o.direction
    latched := h
    correction := (s.drift.bands.get h.band).correction
    axles := [], nextTag := 0, lastTime := o.time, lastSpeed := o.speed, separation := none
    gapDue := o.time, gapDueMark := false
    flags := { Flags.ofSource h.source with
      wrongWay := o.direction = .reverse, correctionDefault := s.drift.defaulted,
      continuation := continuation } }

namespace Vehicle

/-- An observation is placed in the list after the first `n` axles; its loads are computed and its marks tested
(R35, R77, R78, R83). -/
def placeAt (p : Params) (n : Nat) (o : Observation) (v : Vehicle) : Vehicle :=
  let a := loadedAxle p v (n + 1) o
  (v.insertAxle n a).takeMarks a

/-- An observation is appended and becomes the latest axle (R77, R81). -/
def append (p : Params) (o : Observation) (v : Vehicle) : Vehicle :=
  (v.placeAt p v.axles.length o).becomeLatest p o.time o.speed

/-- The joining test but for room: direction, spacing and loop (R77). -/
def joins (p : Params) (o : Observation) (v : Vehicle) : Bool :=
  o.direction = v.direction &&
    spacingOf v.lastSpeed o.speed v.lastTime o.time ≤ p.maxSpacing &&
    (!p.loopFitted ||
      match v.separation with
      | none => true
      | some t => sdiff o.time t < 0)

/-- The axle lies at or after the vehicle's first axle (R78). -/
def reachesFirst (o : Observation) (v : Vehicle) : Bool :=
  match v.axles.head? with
  | some a => reached o.time a.time
  | none => true

/-- The transferred axle whose absent half a local half fills (R106). -/
def localMergeTarget (p : Params) (o : Observation) (v : Vehicle) : Option (Axle × HalfAxle) :=
  match o.loneHalf with
  | none => none
  | some h =>
    if v.pairing = .owner ∧ v.flags.partnerLost = false ∧ o.direction = v.direction then
      (nearest (fun a => (sdiff a.time o.time).natAbs) (v.axles.filter (fun a =>
        State.withinK p a.time o.time &&
          match a.loneHalf with
          | some (g, l) => g = h.half.other && l.remote
          | none => false))).map (fun a => (a, h))
    else none

/-- The half that makes an axle of the vehicle an edge axle, when it is one (R90). -/
def edgeHalf (p : Params) (a : Axle) (v : Vehicle) : Option (Half × HalfLoad) :=
  match a.loneHalf with
  | none => none
  | some (h, l) =>
    let n := p.neighbour.get h
    if a.direction = .forward ∧ n ≠ 0 ∧ v.flags.partnerLost = false ∧
        (v.pairing = .unpaired ∨ v.pairing = .owner ∧ n = v.peer) then some (h, l)
    else none

end Vehicle

namespace State

/-- The axle just placed in the open vehicle is tested as an edge axle, or forwarded by a yielder (R90, R103). -/
def afterPlacement (a : Axle) (s : State) : State :=
  match s.assembler.openVehicle with
  | none => s
  | some v =>
    if v.pairing = .yielded then s.forwardAxle v.number a
    else
      match v.edgeHalf s.control.params a with
      | some (h, l) => s.admitEdge v a h l
      | none => s

/-- An observation is placed after the first `n` axles of a vehicle, which then stands in the open slot (R77, R78). -/
def placeOpen (n : Nat) (latest : Bool) (o : Observation) (v : Vehicle) (s : State) : State :=
  let p := s.control.params
  let w := v.placeAt p n o
  let w := if latest then w.becomeLatest p o.time o.speed else w
  (s.setSlot .openSlot (some w)).afterPlacement (loadedAxle p v (n + 1) o)

/-- An observation opens a vehicle; the open slot is empty (R72). -/
def openWith (o : Observation) (continuation : Bool) (s : State) : State :=
  let v := newVehicle s o continuation
  ({ s with assembler := { s.assembler with lastNumber := v.number } }).placeOpen 0 true o v

/-- The vehicle in the open slot changes its flags. -/
def flagOpen (f : Flags → Flags) (s : State) : State :=
  { s with assembler := { s.assembler with
      openVehicle := s.assembler.openVehicle.map (fun v => { v with flags := f v.flags }) } }

/-- A late axle: inserted in time order, or discarded with its flag (R78). -/
def placeLate (o : Observation) (v : Vehicle) (s : State) : State :=
  let fits := o.direction = v.direction && v.reachesFirst o
  let full := Config.axleCapacity ≤ v.axles.length
  if fits && !full then s.placeOpen (v.placeOf o.time) false o v
  else s.flagOpen (fun f =>
    { f with incomplete := f.incomplete || !fits, truncated := f.truncated || full })

/-- A local half fills the absent half of a transferred axle (R106). -/
def mergeLocal (a : Axle) (h : HalfAxle) (v : Vehicle) (s : State) : State :=
  s.setSlot .openSlot (some (v.fillAxle a h.half
    (halfLoad s.control.params v.latched.factor v.correction h)))

/-- The placement of an admitted axle (R70, R72, R77 to R79, R106). -/
def placeAxle (o : Observation) (s : State) : State :=
  match s.assembler.openVehicle with
  | none => s.openWith o false
  | some v =>
    match v.localMergeTarget s.control.params o with
    | some (a, h) => s.mergeLocal a h v
    | none =>
      if reached o.time v.lastTime then
        if v.joins s.control.params o then
          if v.axles.length < Config.axleCapacity then s.placeOpen v.axles.length true o v
          else ((s.flagOpen (fun f => { f with truncated := true })).endOpen).openWith o true
        else s.endOpen.openWith o false
      else s.placeLate o v

/-- An axle is admitted (R32). -/
def admitAxle (o : Observation) (s : State) : State := (s.bump .axlesAdmitted).placeAxle o

/-- A lone-lead signal marks the open vehicle INCOMPLETE (R23, R83). -/
def loneLeadSignal (s : State) : State := s.flagOpen (fun f => { f with incomplete := true })

/-! ## The loop -/

/-- The loop input is read at a sample instant, when a loop is fitted (R75). -/
def readLoop (high : Bool) (s : State) : State :=
  if s.control.params.loopFitted then
    let l := s.assembler.loop
    let l' := if l.count != 0 && l.level == high then { l with count := min 3 (l.count + 1) }
      else { l with level := high, count := 1, since := s.localTime }
    { s with assembler := { s.assembler with loop := l' } }
  else s

/-- Three successive samples agree on a level other than the qualified state (R75). -/
def loopIsDue (s : State) : Bool :=
  s.measuringSample && s.control.params.loopFitted && s.assembler.loop.count == 3 &&
    s.assembler.loop.qualified != some s.assembler.loop.level

/-- The separation test of a transition to CLEAR (R76). -/
def separate (t : LocalTime) (v : Vehicle) : Vehicle :=
  if v.separation.isNone && sdiff v.lastTime t < 0 then { v with separation := some t } else v

/-- The qualified loop state changes; a transition to CLEAR, which the first setting is not, is given to the
separation test (R75, R76). -/
def takeLoop (s : State) : State :=
  let l := s.assembler.loop
  let cleared := l.qualified.isSome && !l.level
  { s with assembler := { s.assembler with
      loop := { l with qualified := some l.level },
      openVehicle := if cleared then s.assembler.openVehicle.map (separate l.since)
        else s.assembler.openVehicle } }

/-! ## The gap timer -/

/-- A half-axle waits in a pairing slot with a lead time before `t` (R82). -/
def halfWaitsBefore (s : State) (t : LocalTime) : Bool :=
  [s.pairs.left.slot, s.pairs.right.slot].any (fun o => o.any (fun h => sdiff h.leadTime t < 0))

/-- The vehicle of a slot, when its gap timer comes due (R82). -/
def gapVehicle (s : State) (slot : Slot) : Option Vehicle :=
  if s.measuringSample then
    (s.vehicleIn slot).filter (fun v =>
      !v.gapDueMark && reached s.localTime v.gapDue && !s.halfWaitsBefore v.gapDue)
  else none

/-- The gap timer of the vehicle of a slot comes due (R82). -/
def takeGap (slot : Slot) (v : Vehicle) (s : State) : State :=
  let s := s.setSlot slot (some (v.takeGapMark s.control.params s.localTime))
  match slot with
  | .openSlot => s.endOpen
  | .closingSlot => s.closeTest

end State

/-! ## Meanings -/

/-- LOOP_TRANSITION (R75, R76). -/
def execLoopTransition (s : State) : Host.Outcome State Fault Refusal :=
  .next (if s.loopIsDue then s.takeLoop else s)

/-- GAP_TIMER (R82). -/
def execGapTimer (slot : Slot) (s : State) : Host.Outcome State Fault Refusal :=
  match s.gapVehicle slot with
  | some v => .next (s.takeGap slot v)
  | none => .next s

end Sys2Proof.Machine
end

