-- ==== Sys2Proof/Machine/Pairing.lean ====
section
/-! DEFINITION. Axle formation (chapter 02): the pairing of leads and trails, expiry, half combination, release, and the
meanings of LEAD_EXPIRY_BY_AGE, ORPHAN_EXPIRY_BY_AGE and HALF_RELEASE. -/
namespace Sys2Proof.Machine

/-- An interval lies within the pairing window (R18). -/
def inWindow (p : Params) (interval : Int) : Bool :=
  p.intervalMin ≤ interval && interval ≤ p.intervalMax

/-- The half of a channel (R14). -/
def Chan.half : Chan → Half
  | .ll | .tl => .left
  | .lr | .tr => .right

/-- A record of a lead channel is a lead, one of a trail channel a trail (R14). -/
def Chan.isLead : Chan → Bool
  | .ll | .lr => true
  | .tl | .tr => false

/-- The half-axle of a lead and a trail (R18, R25). -/
def formHalfAxle (p : Params) (h : Half) (direction : Direction) (lead trail : Pulse) : HalfAxle :=
  let dt := match direction with
    | .forward => (sdiff trail.time lead.time).toNat
    | .reverse => (sdiff lead.time trail.time).toNat
  { half := h, direction := direction, leadTime := lead.time, trailTime := trail.time, interval := dt,
    speed := p.spacing * 16384 / dt, leadArea := lead.area, trailArea := trail.area,
    saturated := lead.saturated || trail.saturated }

namespace HalfAxle

/-- The closing time (R25). -/
def closingTime (h : HalfAxle) : LocalTime :=
  match h.direction with
  | .forward => h.trailTime
  | .reverse => h.leadTime

/-- The release time of a half-axle that waits (R28). -/
def releaseTime (p : Params) (h : HalfAxle) : LocalTime := later h.closingTime (p.skew + p.allowance)

/-- The half-axle as a single-half axle (R27). -/
def alone (h : HalfAxle) : Observation :=
  { direction := h.direction, time := h.leadTime, speed := h.speed
    left := match h.half with
      | .left => some h
      | .right => none
    right := match h.half with
      | .left => none
      | .right => some h }

/-- Two mates as a two-half axle; `l` is the LEFT half (R27). -/
def combined (l r : HalfAxle) : Observation :=
  let d := sdiff r.leadTime l.leadTime
  { direction := l.direction
    time := if 0 ≤ d then later l.leadTime (d.natAbs / 2) else later r.leadTime (d.natAbs / 2)
    speed := (l.speed + r.speed) / 2
    left := some l
    right := some r }

/-- A half-axle and its mate on the other side, as one axle (R26, R27). -/
def combine (h mate : HalfAxle) : Observation :=
  match h.half with
  | .left => combined h mate
  | .right => combined mate h

end HalfAxle

namespace State

/-! ## Half combination -/

/-- The collections of one half change. -/
def setLists (h : Half) (l : HalfLists) (s : State) : State := { s with pairs := s.pairs.set h l }

/-- The slot of one half is set or emptied. -/
def setHalfSlot (h : Half) (x : Option HalfAxle) (s : State) : State :=
  s.setLists h { s.pairs.get h with slot := x }

/-- The half-axle waiting in the slot of a half with a lead time before `t` (R29). -/
def waitingBefore (s : State) (h : Half) (t : LocalTime) : Option HalfAxle :=
  (s.pairs.get h).slot.filter (fun x => sdiff x.leadTime t < 0)

/-- An axle is admitted after the release of every half waiting with an earlier lead time, the earlier lead time
first (R29). Between two equal lead times the order is free (notes/assumptions/29). -/
def admitOrdered (o : Observation) (s : State) : State :=
  match s.waitingBefore .left o.time, s.waitingBefore .right o.time with
  | none, none => s.admitAxle o
  | some l, none => ((s.setHalfSlot .left none).admitAxle l.alone).admitAxle o
  | none, some r => ((s.setHalfSlot .right none).admitAxle r.alone).admitAxle o
  | some l, some r =>
    let s := (s.setHalfSlot .left none).setHalfSlot .right none
    if sdiff l.leadTime r.leadTime < 0 then ((s.admitAxle l.alone).admitAxle r.alone).admitAxle o
    else if 0 < sdiff l.leadTime r.leadTime then ((s.admitAxle r.alone).admitAxle l.alone).admitAxle o
    else if s.drawOrder % 2 = 0 then ((s.drawn.admitAxle l.alone).admitAxle r.alone).admitAxle o
    else ((s.drawn.admitAxle r.alone).admitAxle l.alone).admitAxle o

/-- A half-axle that waits in the slot of a half is released and admitted (R28, R29). -/
def releaseHalf (side : Half) (x : HalfAxle) (s : State) : State :=
  (s.setHalfSlot side none).admitOrdered x.alone

/-- Two half-axles of the two sides are mates (R26, third step). -/
def mates (p : Params) (h q : HalfAxle) : Bool :=
  h.direction = q.direction && (sdiff h.leadTime q.leadTime).natAbs ≤ p.skew

/-- A half-axle that still waits on a half is released (R26, second step). -/
def freeHalf (h : Half) (s : State) : State :=
  match (s.pairs.get h).slot with
  | some q => s.releaseHalf h q
  | none => s

/-- Half combination takes a new half-axle (R26). -/
def combineHalf (h : HalfAxle) (s : State) : State :=
  if s.live h.half.other then
    let s := s.freeHalf h.half
    match (s.pairs.get h.half.other).slot with
    | some q =>
      if mates s.control.params h q then (s.setHalfSlot h.half.other none).admitOrdered (h.combine q)
      else s.setHalfSlot h.half (some h)
    | none => s.setHalfSlot h.half (some h)
  else s.admitOrdered h.alone

/-! ## Expiry -/

/-- Leads expire as lone leads: each is counted, and the assembler is signalled (R23). -/
def expireLeads (n : Nat) (s : State) : State :=
  if n = 0 then s else (s.bumpBy .loneLeads n).loneLeadSignal

/-- Orphans expire as orphan trails: each is counted (R23). -/
def expireOrphans (n : Nat) (s : State) : State := if n = 0 then s else s.bumpBy .orphanTrails n

/-- A record is too old for one of time `t`: its time precedes it by more than Δt_max (R20, R21). -/
def tooOld (p : Params) (t : LocalTime) (x : Pulse) : Bool := sdiff t x.time > p.intervalMax

/-! ## Arrivals -/

/-- The orphan a lead pairs with, and the direction: the oldest earlier one in the window, else the oldest later
one in the window (R20). -/
def orphanFor (p : Params) (lead : Pulse) (orphans : List Pulse) : Option (Direction × Pulse) :=
  match orphans.find? (fun o => inWindow p (sdiff lead.time o.time)) with
  | some o => some (.reverse, o)
  | none => (orphans.find? (fun o => inWindow p (sdiff o.time lead.time))).map (fun o => (.forward, o))

/-- A lead arrives at a live half (R20). -/
def leadArrival (h : Half) (lead : Pulse) (s : State) : State :=
  let p := s.control.params
  let l := s.pairs.get h
  let kept := l.orphans.filter (fun o => !tooOld p lead.time o)
  let s := s.expireOrphans (l.orphans.length - kept.length)
  match orphanFor p lead kept with
  | some (d, o) =>
    (s.setLists h { l with orphans := kept.erase o }).combineHalf (formHalfAxle p h d lead o)
  | none =>
    if Config.leadCapacity ≤ l.leads.length then
      (s.expireLeads 1).setLists h { l with orphans := kept, leads := l.leads.tail ++ [lead] }
    else s.setLists h { l with orphans := kept, leads := l.leads ++ [lead] }

/-- A trail joins the orphan list (R21). -/
def joinOrphans (h : Half) (trail : Pulse) (leads : List Pulse) (s : State) : State :=
  let l := s.pairs.get h
  if Config.orphanCapacity ≤ l.orphans.length then
    (s.expireOrphans 1).setLists h { l with leads := leads, orphans := l.orphans.tail ++ [trail] }
  else s.setLists h { l with leads := leads, orphans := l.orphans ++ [trail] }

/-- A trail arrives at a live half (R21). -/
def trailArrival (h : Half) (trail : Pulse) (s : State) : State :=
  let p := s.control.params
  let l := s.pairs.get h
  let kept := l.leads.filter (fun x => !tooOld p trail.time x)
  let s := s.expireLeads (l.leads.length - kept.length)
  match kept with
  | lead :: rest =>
    if inWindow p (sdiff trail.time lead.time) then
      (s.setLists h { l with leads := rest }).combineHalf (formHalfAxle p h .forward lead trail)
    else s.joinOrphans h trail kept
  | [] => s.joinOrphans h trail []

/-- A pulse record reaches its half (R14). -/
def pulseArrival (x : Pulse) (s : State) : State :=
  if x.chan.isLead then s.leadArrival x.chan.half x else s.trailArrival x.chan.half x

/-! ## Age -/

/-- The age of a list entry exceeds Δt_max (R19, R22). -/
def aged (s : State) (x : Pulse) : Bool :=
  sdiff s.localTime x.time - s.control.params.allowance > s.control.params.intervalMax

/-- The first lead of a half whose age exceeds Δt_max, at a sample instant (R22). -/
def agedLead (s : State) (h : Half) : Option Pulse :=
  if s.measuringSample then (s.pairs.get h).leads.find? s.aged else none

/-- The first orphan of a half whose age exceeds Δt_max, at a sample instant (R22). -/
def agedOrphan (s : State) (h : Half) : Option Pulse :=
  if s.measuringSample then (s.pairs.get h).orphans.find? s.aged else none

/-- The half-axle in the slot of a half, when its release time has come at a sample instant (R28). -/
def dueHalf (s : State) (h : Half) : Option HalfAxle :=
  if s.measuringSample then
    (s.pairs.get h).slot.filter (fun x => reached s.localTime (x.releaseTime s.control.params))
  else none

end State

/-! ## Meanings -/

/-- LEAD_EXPIRY_BY_AGE (R22, R23). -/
def execLeadExpiryByAge (h : Half) (s : State) : Host.Outcome State Fault Refusal :=
  match s.agedLead h with
  | some x =>
    .next ((s.setLists h { s.pairs.get h with leads := (s.pairs.get h).leads.erase x }).expireLeads 1)
  | none => .next s

/-- ORPHAN_EXPIRY_BY_AGE (R22, R23). -/
def execOrphanExpiryByAge (h : Half) (s : State) : Host.Outcome State Fault Refusal :=
  match s.agedOrphan h with
  | some x =>
    .next ((s.setLists h { s.pairs.get h with orphans := (s.pairs.get h).orphans.erase x }).expireOrphans 1)
  | none => .next s

/-- HALF_RELEASE (R28, R29). -/
def execHalfRelease (h : Half) (s : State) : Host.Outcome State Fault Refusal :=
  match s.dueHalf h with
  | some x => .next (s.releaseHalf h x)
  | none => .next s

end Sys2Proof.Machine
end

