-- ==== Sys2Proof/Machine/Channels.lean ====
section
/-! DEFINITION. Strip channels and pulse detection (chapter 01): the levels, the baseline, the detector, and the
meaning of SAMPLE. -/
namespace Sys2Proof.Machine

/-- The threshold θ of a threshold code (R3). -/
def theta (code : Nat) : Int := ([512, 1024, 1536, 2048, 3072, 4096, 6144, 8192] : List Int).getD code 8192

/-- The release level ρ of a threshold code (R3). -/
def rho (code : Nat) : Int := theta code / 2

/-- What a channel gives the rest of the part on a sample. -/
inductive Detection where
  | nothing
  /-- A pulse was abandoned (R12). -/
  | overlong
  /-- A pulse completed (R10). -/
  | pulse (time : LocalTime) (area : Nat) (saturated : Bool)
  deriving DecidableEq, Repr

/-- The area of a pulse takes a net sample or a tail sum: held at its limit, the mark set once the limit is reached
(R10, R11, notes/assumptions/10). -/
def addArea (x : Nat) (c : Channel) : Channel :=
  { c with area := min Config.areaMax (c.area + x),
           saturated := c.saturated || Config.areaMax ≤ c.area + x }

/-- The duration of the pulse in progress at sample `n` (R12). -/
def pulseDuration (n : SampleIndex) (c : Channel) : Int := (n - c.start.getD n).toInt + 1

/-- The midpoint of a pulse, from its start and end samples (R10). -/
def pulseTime (start finish : SampleIndex) : LocalTime :=
  BitVec.ofNat 32 (2 * start.toNat) + BitVec.ofInt 32 (finish - start).toInt

/-- The channel with no pulse in progress (R10, R12). -/
def Channel.cleared (c : Channel) : Channel :=
  { c with count := 0, area := 0, tailSum := 0, start := none, tentativeEnd := none, saturated := false }

/-- The baseline moves toward a sample (R5). -/
def baselineStep (b s : Int) : Int := b + (s * 256 - b).fdiv 256

/-- One net sample in PULSE, after the duration test (R8). -/
def inPulse (ρ : Int) (n : SampleIndex) (x : Int) (c : Channel) : Channel :=
  if x > ρ then addArea x.toNat c
  else { c with detector := .tail, count := 1, tentativeEnd := some (n - 1), tailSum := x.toNat }

/-- One net sample in TAIL, after the duration test (R9, R10). -/
def inTail (ρ : Int) (n : SampleIndex) (x : Int) (c : Channel) : Channel × Detection :=
  if x > ρ then
    ({ addArea x.toNat (addArea c.tailSum c) with
        detector := .pulse, count := 0, tailSum := 0, tentativeEnd := none }, .nothing)
  else if c.count + 1 < 3 then ({ c with count := c.count + 1, tailSum := c.tailSum + x.toNat }, .nothing)
  else
    ({ c.cleared with detector := .idle },
      .pulse (pulseTime (c.start.getD n) (c.tentativeEnd.getD n)) c.area c.saturated)

/-- One net sample in a state of the detector (R6 to R9, R12, R13). -/
def detectNet (θ ρ : Int) (maxPulse : Nat) (n : SampleIndex) (s b x : Int) (c : Channel) :
    Channel × Detection :=
  match c.detector with
  | .idle =>
    if x ≤ θ then ({ c with baseline := some (baselineStep b s) }, .nothing)
    else
      ({ c with detector := .qualify, start := some n, count := 1, area := x.toNat, saturated := false,
                tailSum := 0, tentativeEnd := none }, .nothing)
  | .qualify =>
    if x > θ then
      ({ addArea x.toNat c with
          count := c.count + 1, detector := if c.count + 1 < 3 then .qualify else .pulse }, .nothing)
    else ({ c.cleared with detector := .idle }, .nothing)
  | .pulse =>
    if pulseDuration n c > maxPulse then ({ c.cleared with detector := .held }, .overlong)
    else (inPulse ρ n x c, .nothing)
  | .tail =>
    if pulseDuration n c > maxPulse then ({ c.cleared with detector := .held }, .overlong)
    else inTail ρ n x c
  | .held =>
    if x > ρ then ({ c with count := 0 }, .nothing)
    else if c.count + 1 < 3 then ({ c with count := c.count + 1 }, .nothing)
    else ({ c with detector := .idle, count := 0 }, .nothing)

/-- The net sample: the sample less the floored baseline (R4). -/
def netSample (b s : Int) : Int := s - b.fdiv 256

/-- One sample of an enabled channel (R4): the first loads the baseline. -/
def detect (θ ρ : Int) (maxPulse : Nat) (n : SampleIndex) (s : Int) (c : Channel) : Channel × Detection :=
  match c.baseline with
  | none => ({ c with baseline := some (s * 256) }, .nothing)
  | some b => detectNet θ ρ maxPulse n s b (netSample b s) c

/-- The pulse a channel of a live half hands over (R2, R14). -/
def handedPulse (live : Bool) (chan : Chan) (d : Detection) : List Pulse :=
  match d with
  | .pulse time area saturated =>
    if live then [{ chan := chan, time := time, area := area, saturated := saturated }] else []
  | .nothing | .overlong => []

namespace State

/-- A sample of one channel: a disabled channel takes none (R2). -/
def channelSample (s : State) (chan : Chan) (code : BitVec 16) : Channel × Detection :=
  let p := s.control.params
  let c := s.channels.get chan
  if p.gain.get chan = 0 then (c, .nothing)
  else
    let k := p.threshold.get chan
    detect (theta k) (rho k) p.maxPulse (sampleIndex s.localTime) code.toInt c

/-- The pulse records of one sample instant reach their halves (R14). Within a half the records come as given, its trail
before its lead: R24 says that both orders give one outcome and describes it so, while R20 and R21 taken with the
lead first would give another in the six cases that notes/assumptions/40 names, a lead and a trail more than Δt_max apart
and full lists among them; THE MODEL'S CHOICE. Between the two halves the order is free (R30, notes/assumptions/2). -/
def arrivals (left right : List Pulse) (s : State) : State :=
  if left.isEmpty || right.isEmpty then (left ++ right).foldl (fun s x => s.pulseArrival x) s
  else (interleave s.drawOrder left right).foldl (fun s x => s.pulseArrival x) s.drawn

/-- Overlong pulses are counted (R12, R16). -/
def countOverlong (l : List Detection) (s : State) : State :=
  let n := (l.filter (fun d => d = .overlong)).length
  if n = 0 then s else s.bumpBy .overlongPulses n

/-- One sample of the measuring station: the four channels, the loop input, and the pulses completed (R1, R75). R76 lets
an admission and a transition to CLEAR of one instant come in either order; the admissions that this sample brings come
before the LOOP_TRANSITION of its instant, THE MODEL'S CHOICE (notes/assumptions/42). -/
def takeSample (ll lr tl tr : BitVec 16) (loopHigh : Bool) (s : State) : State :=
  let a := s.channelSample .ll ll
  let b := s.channelSample .lr lr
  let c := s.channelSample .tl tl
  let d := s.channelSample .tr tr
  let s1 := ({ s with channels := ⟨a.1, b.1, c.1, d.1⟩ }).countOverlong [a.2, b.2, c.2, d.2]
  (s1.readLoop loopHigh).arrivals
    (handedPulse (s.live .left) .tl c.2 ++ handedPulse (s.live .left) .ll a.2)
    (handedPulse (s.live .right) .tr d.2 ++ handedPulse (s.live .right) .lr b.2)

/-- At each sample instant after the one from which the phase's commands, with its first status read, were sent, the
status of the configuration memory is read again while the STARTING flow or the store waits for it (R137, R138, R160,
notes/assumptions/32). -/
def pollMemory (s : State) : State :=
  if s.answered && (s.starts || s.drift.store = .erasing || s.drift.store = .programming) then
    { s with drift := { s.drift with port := [.readStatus] } }
  else s

end State

/-- SAMPLE (R1): conversions are discarded in a station that does not measure; there is none at an odd local time. -/
def execSample (ll lr tl tr : BitVec 16) (loopHigh : Bool) (s : State) :
    Host.Outcome State Fault Refusal :=
  if sampleInstant s.localTime then
    if s.measuring then .next (s.pollMemory.takeSample ll lr tl tr loopHigh) else .next s.pollMemory
  else .next s

end Sys2Proof.Machine
end

