-- ==== Sys2Proof/Machine/Image.lean ====
section
/-! DEFINITION. The configuration image: its checks (R161), and its preparation into the parameter set with the mark
"config adjusted" (R44, R51, R114 to R116, R130, R153, R162). -/
namespace Sys2Proof.Machine

/-! ## The checks -/

/-- The size of the fixed part of the image (11, Sector 0: bytes 0 to 98). -/
def imageFixedSize : Nat := 99

/-- The length field. -/
def imageLength (img : List Byte) : Nat := u16At img 1

/-- The address after `n` class entries from `at'`, by their condition counts as written; none when a count byte
would lie at or beyond the length (R161). -/
def walkEntries (img : List Byte) (len : Nat) : Nat → Nat → Option Nat
  | 0, at' => some at'
  | n + 1, at' =>
    if len ≤ at' + 16 then none else walkEntries img len n (at' + 17 + 5 * byteAt img (at' + 16))

/-- The address of the class entry count (11, Sector 0). -/
def classCountAt (img : List Byte) : Nat := imageFixedSize + 4 * byteAt img 98

/-- The total size that the counts give, as written (R161). -/
def imageWalk (img : List Byte) : Option Nat :=
  if imageLength img ≤ classCountAt img then none
  else walkEntries img (imageLength img) (byteAt img (classCountAt img)) (classCountAt img + 1)

/-- The length check holds (R161). -/
def lengthGood (img : List Byte) : Bool :=
  imageFixedSize ≤ imageLength img && imageLength img ≤ 4094 && imageWalk img == some (imageLength img)

/-- The check word holds (R161). -/
def checkGood (img : List Byte) : Bool :=
  byteSum (img.take (imageLength img)) % 65536 == u16At img (imageLength img)

/-- The outcome of the checks, in their order (R161). -/
def checkImage (img : List Byte) : ImageState :=
  if byteAt img 0 ≠ 3 then .badFormat
  else if lengthGood img = false then .badLength
  else if checkGood img = false then .badCheck
  else .good

/-! ## Preparation -/

/-- A prepared value, and whether preparing it is an adjustment. -/
structure Prepared (α : Type) where
  value : α
  adjusted : Bool
  deriving DecidableEq, Repr

/-- A clamped value (R162). -/
def prepareNat (lo hi raw : Nat) : Prepared Nat :=
  { value := clampNat lo hi raw, adjusted := clampNat lo hi raw != raw }

/-- A clamped signed value (R162). -/
def prepareInt (lo hi raw : Int) : Prepared Int :=
  { value := clampInt lo hi raw, adjusted := clampInt lo hi raw != raw }

/-- A neighbour: clamped, and one naming the station's own number taken as 0 (R162, notes/assumptions/19). -/
def prepareNeighbour (own raw : Nat) : Prepared Nat :=
  let n := prepareNat 0 15 raw
  if n.value != 0 && n.value == own then { value := 0, adjusted := true } else n

/-- A yes/no field reads as yes when its byte is not 0 (R162). -/
def yesNo (raw : Nat) : Bool := raw != 0

/-- Points after `a` as long as their temperatures rise (R44). -/
def cutAfter (a : CurvePoint) : List CurvePoint → List CurvePoint
  | [] => []
  | b :: rest => if a.temp < b.temp then b :: cutAfter b rest else []

/-- The curve cut at the first point whose temperature does not rise (R44). -/
def cutCurve : List CurvePoint → List CurvePoint
  | [] => []
  | a :: rest => a :: cutAfter a rest

/-- The curve (R44): the count clamped, the points clamped, the curve cut. -/
def prepareCurve (img : List Byte) : Prepared (List CurvePoint) :=
  let count := prepareNat 0 8 (byteAt img 98)
  let raw := (List.range count.value).map (fun i =>
    (prepareInt (-400) 800 (s16At img (99 + 4 * i)), prepareNat 8192 32767 (u16At img (101 + 4 * i))))
  let points : List CurvePoint := raw.map (fun r => { temp := r.1.value, factor := r.2.value })
  let cut := cutCurve points
  { value := cut
    adjusted := count.adjusted || raw.any (fun r => r.1.adjusted || r.2.adjusted) ||
      cut.length != points.length }

/-- The track condition of a code; one that names none is ANY (R115). -/
def prepareTrack (raw : Nat) : Prepared Track :=
  match raw with
  | 0 => { value := .any, adjusted := false }
  | 1 => { value := .singleTrack, adjusted := false }
  | 2 => { value := .twoTrack, adjusted := false }
  | _ => { value := .any, adjusted := true }

/-- An optional part: read and prepared when its presence bit is set (R115). -/
def prepareOptional {α : Type} (present : Bool) (x : Prepared α) : Prepared (Option α) :=
  if present then { value := some x.value, adjusted := x.adjusted }
  else { value := none, adjusted := false }

/-- No vehicle can satisfy the entry (R115). -/
def unsatisfiable (e : ClassEntry) : Bool :=
  e.greatestAxles < e.leastAxles ||
    (match e.gross with
      | some r => r.2 < r.1
      | none => false) ||
    e.conditions.any (fun c => c.greatest < c.least || e.greatestAxles ≤ c.index)

/-- The class entry at an address (R114, R115); none when its class code drops it. -/
def prepareEntry (img : List Byte) (at' : Nat) : Prepared (Option ClassEntry) :=
  let code := byteAt img at'
  if code < 1 ∨ 63 < code then { value := none, adjusted := true }
  else
    let least := prepareNat 1 12 (byteAt img (at' + 1))
    let greatest := prepareNat 1 12 (byteAt img (at' + 2))
    let track := prepareTrack (byteAt img (at' + 3))
    let presence := byteAt img (at' + 4)
    let lowGross := prepareNat 0 786420 (u24At img (at' + 5))
    let highGross := prepareNat 0 786420 (u24At img (at' + 8))
    let gross := prepareOptional (presence.testBit 0)
      { value := (lowGross.value, highGross.value), adjusted := lowGross.adjusted || highGross.adjusted }
    let grossLimit := prepareOptional (presence.testBit 1) (prepareNat 1 786420 (u24At img (at' + 11)))
    let axleLimit := prepareOptional (presence.testBit 2) (prepareNat 1 65535 (u16At img (at' + 14)))
    let count := prepareNat 0 6 (byteAt img (at' + 16))
    let raw := (List.range count.value).map (fun i =>
      (prepareNat 1 11 (byteAt img (at' + 17 + 5 * i)), u16At img (at' + 18 + 5 * i),
        u16At img (at' + 20 + 5 * i)))
    let e : ClassEntry :=
      { code := code, leastAxles := least.value, greatestAxles := greatest.value, track := track.value,
        gross := gross.value,
        conditions := raw.map (fun r => { index := r.1.value, least := r.2.1, greatest := r.2.2 }),
        grossLimit := grossLimit.value, axleLimit := axleLimit.value }
    { value := some e
      adjusted := least.adjusted || greatest.adjusted || track.adjusted || gross.adjusted ||
        grossLimit.adjusted || axleLimit.adjusted || count.adjusted || raw.any (fun r => r.1.adjusted) ||
        unsatisfiable e }

/-- The first `n` class entries from an address on (R114). -/
def prepareEntries (img : List Byte) : Nat → Nat → List (Prepared (Option ClassEntry))
  | 0, _ => []
  | n + 1, at' =>
    prepareEntry img at' :: prepareEntries img n (at' + 17 + 5 * byteAt img (at' + 16))

/-- The class table (R114, R115). -/
def prepareTable (img : List Byte) : Prepared (List ClassEntry) :=
  let count := prepareNat 0 24 (byteAt img (classCountAt img))
  let entries := prepareEntries img count.value (classCountAt img + 1)
  { value := entries.filterMap Prepared.value
    adjusted := count.adjusted || entries.any Prepared.adjusted }

/-- M: below 16 it stands (tracking is off), else it is clamped to 256 and rounded down to a power of two (R130). -/
def prepareSamples (raw : Nat) : Prepared Nat :=
  let m := if raw < 16 then raw else if raw < 32 then 16 else if raw < 64 then 32
    else if raw < 128 then 64 else if raw < 256 then 128 else 256
  { value := m, adjusted := m != raw }

/-- The overload mode; a code that names none is OFF (R153). -/
def prepareMode (raw : Nat) : Prepared OverloadMode :=
  match raw with
  | 0 => { value := .off, adjusted := false }
  | 1 => { value := .follow, adjusted := false }
  | 2 => { value := .latch, adjusted := false }
  | _ => { value := .off, adjusted := true }

/-- A prepared pair. -/
def preparePair (a b : Prepared Nat) : Prepared (Nat × Nat) :=
  { value := (a.value, b.value), adjusted := a.adjusted || b.adjusted }

/-- The whole image prepared for the station of number `own` (R162; addresses: 11, Sector 0). -/
def prepareImage (own : Nat) (img : List Byte) : Prepared Params :=
  let lane := prepareNat 1 12 (byteAt img 5)
  let left := prepareNeighbour own (byteAt img 6)
  let right := prepareNeighbour own (byteAt img 7)
  let spacing := prepareNat 500 8000 (u16At img 8)
  let codeLL := prepareNat 0 7 (byteAt img 22)
  let codeLR := prepareNat 0 7 (byteAt img 23)
  let codeTL := prepareNat 0 7 (byteAt img 24)
  let codeTR := prepareNat 0 7 (byteAt img 25)
  let maxPulse := prepareNat 256 16384 (u16At img 26)
  let skew := prepareNat 0 1024 (u16At img 28)
  let mismatchPct := prepareNat 5 50 (byteAt img 30)
  let c0 := u16At img 33
  let c100 := u16At img 35
  let filterShift := prepareNat 0 6 (byteAt img 37)
  let jump := prepareNat 10 200 (byteAt img 38)
  let holdOwn := prepareNat 10 3600 (u16At img 39)
  let freshAge := prepareNat 10 600 (u16At img 41)
  let disagree := prepareNat 10 300 (u16At img 43)
  let holdEff := prepareNat 10 7200 (u16At img 45)
  let tempDefault := prepareInt (-400) 800 (s16At img 47)
  let noticePeriod := prepareNat 5 60 (byteAt img 49)
  let tempBase := prepareInt (-400) 800 (s16At img 50)
  let bandWidth := prepareNat 10 400 (u16At img 52)
  let maxSpacing := prepareNat 3000 15000 (u16At img 54)
  let unsteadyPct := prepareNat 5 50 (byteAt img 56)
  let edgeWait := prepareNat 50 2000 (u16At img 57)
  let matchWindow := prepareNat 0 655 (u16At img 59)
  let speedPct := prepareNat 1 25 (byteAt img 61)
  let yieldHold := prepareNat 100 5000 (u16At img 62)
  let siteAxle := prepareNat 1 65535 (u16At img 64)
  let siteGross := prepareNat 1 786420 (u24At img 66)
  let tolerance := prepareNat 0 20 (byteAt img 69)
  let screenSpeed := prepareNat 1000 70000 (u24At img 70)
  let refClass := prepareNat 0 63 (byteAt img 73)
  let nominal := prepareNat 2000 12000 (u16At img 74)
  let samples := prepareSamples (u16At img 76)
  let maxStep := prepareNat 1 64 (byteAt img 78)
  let refSpeed := preparePair (prepareNat 1000 70000 (u24At img 79)) (prepareNat 1000 70000 (u24At img 82))
  let refGross := preparePair (prepareNat 0 786420 (u24At img 85)) (prepareNat 0 786420 (u24At img 88))
  let camera := prepareNat 0 60000 (u16At img 91)
  let pulseWidth := prepareNat 1 100 (byteAt img 93)
  let pulseGap := prepareNat 1 100 (byteAt img 94)
  let mode := prepareMode (byteAt img 95)
  let statusPeriod := prepareNat 10 600 (u16At img 96)
  let curve := prepareCurve img
  let table := prepareTable img
  { value :=
      { lane := lane.value, neighbour := ⟨left.value, right.value⟩, spacing := spacing.value
        gain := ⟨u24At img 10, u24At img 13, u24At img 16, u24At img 19⟩
        threshold := ⟨codeLL.value, codeLR.value, codeTL.value, codeTR.value⟩
        maxPulse := maxPulse.value, skew := skew.value, mismatchPct := mismatchPct.value
        loopFitted := yesNo (byteAt img 31), probeFitted := yesNo (byteAt img 32) && c0 < c100
        c0 := c0, c100 := c100, filterShift := filterShift.value, jump := jump.value
        holdOwn := holdOwn.value, freshAge := freshAge.value, disagree := disagree.value
        holdEff := holdEff.value, tempDefault := tempDefault.value, noticePeriod := noticePeriod.value
        curve := curve.value, tempBase := tempBase.value, bandWidth := bandWidth.value
        maxSpacing := maxSpacing.value, unsteadyPct := unsteadyPct.value, edgeWait := edgeWait.value
        matchWindow := matchWindow.value, speedPct := speedPct.value, yieldHold := yieldHold.value
        classTable := table.value, siteAxleLimit := siteAxle.value, siteGrossLimit := siteGross.value
        tolerance := tolerance.value, screenSpeed := screenSpeed.value
        tracking := refClass.value != 0 && 16 ≤ samples.value, refClass := refClass.value
        nominal := nominal.value, samples := samples.value, maxStep := maxStep.value
        refSpeed := refSpeed.value, refGross := refGross.value, camera := camera.value
        pulseWidth := pulseWidth.value, pulseGap := pulseGap.value, overloadMode := mode.value
        statusPeriod := statusPeriod.value }
    adjusted :=
      lane.adjusted || left.adjusted || right.adjusted || spacing.adjusted || codeLL.adjusted ||
      codeLR.adjusted || codeTL.adjusted || codeTR.adjusted || maxPulse.adjusted || skew.adjusted ||
      mismatchPct.adjusted || c100 ≤ c0 || filterShift.adjusted || jump.adjusted || holdOwn.adjusted ||
      freshAge.adjusted || disagree.adjusted || holdEff.adjusted || tempDefault.adjusted ||
      noticePeriod.adjusted || tempBase.adjusted || bandWidth.adjusted || maxSpacing.adjusted ||
      unsteadyPct.adjusted || edgeWait.adjusted || matchWindow.adjusted || speedPct.adjusted ||
      yieldHold.adjusted || siteAxle.adjusted || siteGross.adjusted || tolerance.adjusted ||
      screenSpeed.adjusted || refClass.adjusted || nominal.adjusted || samples.adjusted ||
      maxStep.adjusted || refSpeed.adjusted || refGross.adjusted ||
      refSpeed.value.2 < refSpeed.value.1 || refGross.value.2 < refGross.value.1 || camera.adjusted ||
      pulseWidth.adjusted || pulseGap.adjusted || mode.adjusted || statusPeriod.adjusted ||
      curve.adjusted || table.adjusted }

end Sys2Proof.Machine
end

