-- ==== Sys2Proof/Machine/Control.lean ====
section
/-! DEFINITION. Start-up and station control (chapter 10): the resets, the STARTING flow, the announcement, STATUS
notices, commands, and the meanings of POWER_UP, RESET_PIN, MEMORY_READY, NO_MEMORY, STATUS_DUE, CLEAR_LATCH,
RESTART, STATUS_NOW, COMMAND_CODE_UNKNOWN, COMMAND_NOT_ADDRESSED and VEHICLE_STATUS_DROPPED. -/
namespace Sys2Proof.Machine

/-- The station number: the straps read as a binary number with weights 8, 4, 2, 1 (R159). -/
def strapNumber (p : Straps) : Nat := bitsToNat [p.station8, p.station4, p.station2, p.station1]

/-- The bit rate of the two rate straps (R159). -/
def strapRate (p : Straps) : BitRate :=
  match p.rate1, p.rate2 with
  | false, false => .kbit125
  | false, true => .kbit250
  | true, false => .kbit500
  | true, true => .kbit1000

namespace State

/-! ## Notices -/

/-- The announcement as it is formed when it is queued (R168). -/
def announceBody (s : State) : Body :=
  let c := s.control
  if c.image = .good then
    .announce c.params.lane c.params.neighbour.left c.params.neighbour.right c.image c.adjusted
      s.drift.defaulted c.causes c.revision
  else .announce 0 0 0 c.image false false c.causes 0

/-- The STATUS as it is formed when it is queued (R169). -/
def statusBody (s : State) : Body :=
  .status (s.control.station = .running) s.temp.status s.temp.suspect (s.drift.store = .fault)
    s.drift.defaulted s.output.overload s.control.adjusted s.counters

/-- The status period in half-ticks: the prepared one, or 60 s where none has been prepared (R165, R169). -/
def statusTicks (s : State) : Nat :=
  Config.halfTicksPerSecond * (if s.measuring then s.control.params.statusPeriod else 60)

/-- The status due time is set one period after an instant (R164, R165). -/
def startStatus (s : State) : State :=
  { s with control := { s.control with statusDue := some (later s.localTime s.statusTicks) } }

/-! ## Resets and the STARTING flow -/

/-- The station enters HALTED with an image state; a numbered one announces itself and starts its STATUS (R165). -/
def enterHalted (image : ImageState) (s : State) : State :=
  let s := { s with control := { s.control with station := .halted, image := image } }
  if s.control.number = 0 then s else (s.produce s.announceBody).startStatus

/-- Every reset: each block as its chapter states after reset, local time 0, the straps read, the reset cause set as
given; a station number of 0 ends the flow at once, and its memory is not read (R159, R165). -/
def afterReset (straps : Straps) (causes : Causes) (s : State) : State :=
  let base : State :=
    { State.reset with
      control := { State.reset.control with number := strapNumber straps, rate := strapRate straps, causes := causes }
      freeCount := s.freeCount, pending := s.pending }
  if strapNumber straps = 0 then
    { base with drift := { base.drift with port := [] } }.enterHalted .notRead
  else base

/-- The pin holds the station in reset: each block as its chapter states after reset, local time standing at 0, the
straps not yet read, no command at the memory port (R157, R159). The strap values stand as they were and the reset
cause set gains pin at the release: THE MODEL'S CHOICE (notes/assumptions/9). -/
def heldInReset (s : State) : State :=
  { State.reset with
    control := { State.reset.control with
      held := true, number := s.control.number, rate := s.control.rate, causes := s.control.causes }
    drift := { State.reset.drift with port := [] }
    freeCount := s.freeCount, pending := s.pending }

/-- The bands of a good correction record: the corrections clamped, the update counts as they stand (R141). -/
def loadedBands (c : Correction) : Vector Band 8 :=
  Vector.ofFn (fun i : Fin 8 =>
    { correction := clampNat 3686 4506 (c.corrections.getD i.val 4096), count := 0, sum := 0,
      updates := c.updates.getD i.val 0 })

/-- The corrections at start: loaded from a good record, else defaulted (R141, R142). -/
def loadCorrections (bytes : List Byte) (d : Drift) : Drift :=
  if goodCorrection bytes then
    { d with bands := loadedBands (readCorrection bytes), saveCount := (readCorrection bytes).saveCount,
             defaulted := false }
  else { d with bands := Vector.replicate 8 Band.reset, saveCount := 0, defaulted := true }

/-- The parameter set is prepared from a GOOD image (R161, R162), and with it the fitted state of the probe (R51,
R68) and the handover values held until the first temperature second (R47). -/
def prepare (image : List Byte) (s : State) : State :=
  let r := prepareImage s.control.number image
  { s with
    control := { s.control with image := .good, revision := u16At image 3, params := r.value,
                                adjusted := r.adjusted }
    temp := { s.temp with status := if r.value.probeFitted then .starting else .absent }
    assembler := { s.assembler with handover := handoverOf r.value r.value.tempDefault .default } }

/-- The station enters RUNNING (R164): the first temperature second falls, the camera line's gap end is set, the
announcement is queued and the status due time is set. -/
def enterRunning (s : State) : State :=
  let p := s.control.params
  let s := { s with
    control := { s.control with station := .running }
    temp := { s.temp with secondDue := some s.localTime }
    output := { s.output with cameraEnd := some (later s.localTime (p.pulseTicks + p.gapTicks)) } }
  (s.produce s.announceBody).startStatus

/-- The STARTING flow once the memory has answered (R161, R162, R141, R142, R164). The image is recorded as one read of
its length field and 2 bytes, also when a check of it fails: THE MODEL'S CHOICE, the manual does not say in how many
commands or bytes it is read (notes/assumptions/22). -/
def startFlow (image correction : List Byte) (s : State) : State :=
  if checkImage image = .good then
    let s := s.prepare image
    { s with drift := { loadCorrections (correction.take correctionSize) s.drift with
        port := [.readData 0 (imageLength image + 2), .readData sectorSize correctionSize] } }.enterRunning
  else
    { s with drift := { s.drift with port := [.readData 0 (imageLength image + 2)] } }.enterHalted
      (checkImage image)

/-- The answer limit has passed without ready, at a sample instant of the STARTING flow (R160). -/
def memoryIsLost (s : State) : Bool :=
  s.starts && sampleInstant s.localTime && 32768 ≤ s.localTime.toNat

/-! ## STATUS and commands -/

/-- Local time has reached the status due time (R169). -/
def statusIsDue (s : State) : Bool := dueReached s.localTime s.control.statusDue

/-- A STATUS falls due: queued but in MUTE, and the due time moves on by one period (R169). -/
def takeStatus (s : State) : State :=
  let s' := s.produce s.statusBody
  { s' with control := { s'.control with
      statusDue := s'.control.statusDue.map (fun t => later t s.statusTicks) } }

/-- The head of the receive queue is a COMMAND that addresses this station, with this code (R166). -/
def commandHere (s : State) (code : Nat) : Bool :=
  s.headCommand.any (fun p => s.addressed (commandTarget p) && commandCode p == code)

/-- CLEAR-LATCH reaches the output unit (R155, R166). -/
def clearOverload (s : State) : State :=
  if s.measuring && s.control.params.overloadMode = .latch then
    { s with output := { s.output with overload := false } }
  else s

/-- The head of the receive queue is a frame that no owner takes: a VEHICLE, a STATUS, or a frame of source 0 that
is no COMMAND (R181). -/
def headUnowned (s : State) : Bool :=
  s.headFrame.any (fun f =>
    f.kind = .vehicle || f.kind = .status || (f.source == 0 && f.kind != .command))

end State

/-! ## Meanings -/

/-- POWER_UP (R159, R168). -/
def execPowerUp (straps : Straps) (s : State) : Host.Outcome State Fault Refusal :=
  .next (s.afterReset straps ⟨true, false, false⟩)

/-- RESET_PIN (R159, R168): a low period shorter than 100 µs leaves the station as it stands; a longer one holds it in
reset while the pin is low, and its release starts it. -/
def execResetPin (lowMicros : Nat) (release : Option Straps) (s : State) : Host.Outcome State Fault Refusal :=
  .next (if lowMicros < 100 then s
    else match release with
      | none => s.heldInReset
      | some straps => s.afterReset straps { s.control.causes with pin := true })

/-- MEMORY_READY (R160 to R164): in the STARTING flow, the result of a status read, at a sample instant after the first
read and within the answer limit. -/
def execMemoryReady (image correction : List Byte) (s : State) : Host.Outcome State Fault Refusal :=
  .next (if s.starts && s.answered && s.localTime.toNat ≤ 32768 then s.startFlow image correction else s)

/-- NO_MEMORY (R160, R165). -/
def execNoMemory (s : State) : Host.Outcome State Fault Refusal :=
  .next (if s.memoryIsLost then s.enterHalted .noMemory else s)

/-- STATUS_DUE (R169). -/
def execStatusDue (s : State) : Host.Outcome State Fault Refusal :=
  .next (if s.statusIsDue then s.takeStatus else s)

/-- CLEAR_LATCH (R155, R166). -/
def execClearLatch (s : State) : Host.Outcome State Fault Refusal :=
  .next (if s.commandHere 1 then s.dispatched.clearOverload else s)

/-- RESTART (R166, R167). -/
def execRestart (straps : Straps) (s : State) : Host.Outcome State Fault Refusal :=
  .next (if s.commandHere 2 then s.afterReset straps { s.control.causes with command := true } else s)

/-- STATUS_NOW (R166). -/
def execStatusNow (s : State) : Host.Outcome State Fault Refusal :=
  .next (if s.commandHere 3 then
      if s.control.station = .running then s.dispatched.produce s.statusBody else s.dispatched
    else s)

/-- COMMAND_CODE_UNKNOWN (R166). -/
def execCommandCodeUnknown (s : State) : Host.Outcome State Fault Refusal :=
  .next (if s.headCommand.any (fun p =>
      s.addressed (commandTarget p) && (commandCode p < 1 || 3 < commandCode p)) then
    s.dispatched.bump .framesDiscarded else s)

/-- COMMAND_NOT_ADDRESSED (R166). -/
def execCommandNotAddressed (s : State) : Host.Outcome State Fault Refusal :=
  .next (if s.headCommand.any (fun p => !s.addressed (commandTarget p)) then s.dispatched else s)

/-- VEHICLE_STATUS_DROPPED (R181). -/
def execVehicleStatusDropped (s : State) : Host.Outcome State Fault Refusal :=
  .next (if s.headUnowned then s.dispatched else s)

end Sys2Proof.Machine
end

