-- ==== Sys2Proof/Machine/Link.lean ====
section
/-! DEFINITION. The site link (chapter 11): the line monitor, the receiver with the frame checks, the transmitter with
arbitration, bit errors and MUTE, and the meanings of LINE_BUSY, LINE_IDLE, BREAK, LINE_FAULT, LINE_FAULT_END,
BREAK_LINE_RELEASED, RECEIVE_CHARACTER, TRANSMIT_ATTEMPT, ARBITRATION_LOSS, ARBITRATION_WON, BIT_ERROR,
BREAKING_END and FRAME_SENT_WHOLE. -/
namespace Sys2Proof.Machine

/-! ## The bits of a character -/

/-- The value of a bit: the majority of its three samples (R172). -/
def majority (b : BitSamples) : Bool := (b.first && b.second) || (b.first && b.third) || (b.second && b.third)

/-- The three samples of a bit do not all agree (R172). -/
def noisyBit (b : BitSamples) : Bool := !(b.first == b.second && b.second == b.third)

/-- The data byte of a character (R173). -/
def characterByte (c : LineCharacter) : Byte := BitVec.ofNat 8 (bitsToNat (c.data.toList.map majority))

/-- Some bit of a character sets the frame's noise mark (R172). -/
def noisyCharacter (c : LineCharacter) : Bool :=
  noisyBit c.start || c.data.toList.any noisyBit || noisyBit c.mark || noisyBit c.stop

/-! ## The frame checks -/

/-- The checks of R179 on the characters of a frame: the kind, source and payload of a good one. -/
def checkFrame (bytes : List Byte) : Option (Kind × Nat × List Byte) :=
  if bytes.length < 4 then none
  else
    let header := byteAt bytes 0
    let source := byteAt bytes 1
    let payload := (bytes.drop 3).take (bytes.length - 4)
    match Kind.ofCode (header % 32) with
    | none => none
    | some k =>
      if byteAt bytes 2 = bytes.length - 4 ∧ byteAt bytes (bytes.length - 1) = (crc8 bytes.dropLast).toNat ∧
          header / 32 = k.priority ∧ k.lengthFits payload ∧ source ≤ 15
      then some (k, source, payload) else none

namespace State

/-! ## MUTE -/

/-- The station enters MUTE from RUNNING or HALTED: the line is released, the transmit queue emptied without count
(R186); in another state nothing changes (R163). -/
def enterMute (s : State) : State :=
  let mute := fun (o : Origin) => { s with
    control := { s.control with station := .mute o }
    link := { s.link with transmitter := .mute, transmitQueue := [], driven := [] } }
  match s.control.station with
  | .running => mute .fromRunning
  | .halted => mute .fromHalted
  | .starting | .mute _ => s

/-! ## The receiver -/

/-- A discarded frame is counted, but in STARTING (R159, R179). -/
def countDiscarded (s : State) : State :=
  if s.control.station = .starting then s else s.bump .framesDiscarded

/-- The receiver goes to HUNT with an empty buffer. -/
def hunt (s : State) : State :=
  { s with link := { s.link with
      receiver := .hunt, buffer := [], bufferNoise := false, bufferOwn := false, ownSent := false } }

/-- The station's own frame is under attempt (R174, R187). -/
def ownAttempt (s : State) : Bool :=
  s.link.transmitter = .arbitrating || s.link.transmitter = .sending || s.link.transmitter = .breaking

/-- The receiver waits for a header with an empty buffer. -/
def readyReceiver (s : State) : State :=
  { s with link := { s.link with
      receiver := .ready, buffer := [], bufferNoise := false, bufferOwn := false, ownSent := false } }

/-- A good frame that this station has not sent: an identity clash, or an entry of the receive queue (R180). -/
def takeFrame (f : RxFrame) (s : State) : State :=
  if s.control.station = .starting then s
  else if f.source = s.control.number ∧ s.control.number ≠ 0 then s.enterMute
  else if Config.receiveCapacity ≤ s.link.receiveQueue.length then s.bump .receiveOverruns
  else { s with link := { s.link with receiveQueue := s.link.receiveQueue ++ [f] } }

/-- The frame in the buffer ends (R178 to R180). -/
def endFrame (s : State) : State :=
  let s' := s.readyReceiver
  match checkFrame s.link.buffer with
  | none => s'.countDiscarded
  | some (k, source, payload) =>
    if s.link.ownSent then s'
    else s'.takeFrame { kind := k, source := source, payload := payload, stamp := s.link.bufferStamp }

/-- The line monitor enters IDLE: a frame in reception ends, and the receiver is ready (R178). -/
def enterIdle (s : State) : State :=
  let s := { s with link := { s.link with monitor := .idle } }
  match s.link.receiver with
  | .hunt => s.readyReceiver
  | .ready => s
  | .inFrame => s.endFrame

/-- The line cuts a reception: the receiver goes to HUNT, and a frame in reception is discarded and counted, unless it
is the station's own under attempt (R174, R178, R179). -/
def cutReception (s : State) : State :=
  if s.link.receiver = .inFrame ∧ ¬ (s.link.bufferOwn = true ∧ s.ownAttempt = true) then s.hunt.countDiscarded
  else s.hunt

/-- The line monitor enters BREAK (R174). -/
def enterBreak (s : State) : State :=
  { s with link := { s.link with monitor := .breakSeen } }.cutReception

/-- The line monitor enters LINE-FAULT, which is counted (R174). -/
def enterLineFault (s : State) : State :=
  ({ s with link := { s.link with monitor := .lineFault } }.cutReception).bump .lineFaults

/-- A character refused now belongs to the station's own broken frame: in IN-FRAME, where the frame in the buffer is
its own past arbitration; in READY, where its own break has spoilt the header (R179, R184, notes/assumptions/14). A stop
bit that the fourth bit error spoils: the manual does not order RECEIVE_CHARACTER and BIT_ERROR, which fall on one instant;
taken before the error, in SENDING, the character is the station's own, and taken after it, in MUTE, it is not, THE MODEL'S
CHOICE (notes/assumptions/14). -/
def refusesOwn (s : State) : Bool :=
  match s.link.receiver with
  | .inFrame => s.link.bufferOwn && (s.link.transmitter = .sending || s.link.transmitter = .breaking)
  | .ready | .hunt => s.link.transmitter = .breaking

/-- A character is refused: the receiver goes to HUNT, and the frame counts as discarded unless it is the station's
own, broken by its own break (R178, R179). -/
def refuseCharacter (s : State) : State := if s.refusesOwn then s.hunt else s.hunt.countDiscarded

/-- A header character starts a frame, which is the station's own where an attempt of its own is under way (R178,
R182). -/
def startFrame (data : Byte) (noise : Bool) (stamp : LocalTime) (s : State) : State :=
  { s with link := { s.link with
      receiver := .inFrame, buffer := [data], bufferStamp := stamp, bufferNoise := noise,
      bufferOwn := s.ownAttempt, ownSent := false } }

/-- A character joins the buffer (R178). -/
def joinBuffer (data : Byte) (noise : Bool) (s : State) : State :=
  { s with link := { s.link with
      buffer := s.link.buffer ++ [data], bufferNoise := s.link.bufferNoise || noise } }

/-- A character in IN-FRAME discards its frame: mark 1, a length above 96, or a character beyond the hundredth
(R178). -/
def breaksFrame (mark : Bool) (data : Byte) (s : State) : Bool :=
  mark || (s.link.buffer.length == 2 && 96 < data.toNat) || Config.bufferCapacity ≤ s.link.buffer.length

/-- A character is received (R178). -/
def takeCharacter (mark : Bool) (data : Byte) (stopHigh noise : Bool) (stamp : LocalTime) (s : State) : State :=
  match s.link.receiver with
  | .hunt => s
  | .ready => if stopHigh && mark then s.startFrame data noise stamp else s.refuseCharacter
  | .inFrame =>
    if !stopHigh || s.breaksFrame mark data then s.refuseCharacter else s.joinBuffer data noise

/-! ## The transmitter -/

/-- Where the transmitter stands after an attempt: WAIT-IDLE while the queue holds a frame, else IDLE (R182). -/
def restTransmitter (q : List TxFrame) : Transmitter := if q.isEmpty then .idle else .waitIdle

/-- The age of a queued frame would exceed 65535 at a start bit (R93). -/
def tooAged (start : LocalTime) (f : TxFrame) : Bool :=
  match f.body.event with
  | some t => sdiff start t > 65535
  | none => false

/-- An attempt may begin: in WAIT-IDLE with the line idle, or on an edge after 11 recessive bit times (R182). -/
def attemptMayBegin (onEdge : Bool) (s : State) : Bool :=
  s.link.transmitter = .waitIdle &&
    (s.link.monitor = .idle || (onEdge && s.link.monitor = .busy))

/-- Queued frames that have been dropped are counted (R93, R184). -/
def countDrops (n : Nat) (s : State) : State := if n = 0 then s else s.bumpBy .transmitDrops n

/-- An attempt begins with the head of the queue, the frames that have become too old removed and counted (R93,
R182). A frame that the buffer already holds is not the one now under attempt (R179). -/
def beginAttempt (s : State) : State :=
  let q := s.link.transmitQueue.dropWhile (tooAged s.localTime)
  let s' := s.countDrops (s.link.transmitQueue.length - q.length)
  match q with
  | [] => { s' with link := { s'.link with transmitQueue := [], transmitter := .idle } }
  | f :: rest =>
    { s' with link := { s'.link with
        transmitQueue := { f with attempted := true } :: rest, transmitter := .arbitrating,
        driven := frameCharacters s.control.number f.body s.localTime, attemptTime := s.localTime,
        bufferOwn := false } }

/-- The attempt has ended, and the frame stays queued (R183, R184). -/
def releaseAttempt (f : TxFrame) : TxFrame := { f with attempted := false }

/-- Arbitration is lost: the receiver goes on reading the frame as another node's (R183). -/
def loseArbitration (s : State) : State :=
  let q := s.link.transmitQueue.map releaseAttempt
  { s with link := { s.link with
      transmitQueue := q, transmitter := restTransmitter q, driven := [], bufferOwn := false } }

/-- A bit error: the frame is given up for the break, or on the fourth in a row the station enters MUTE (R184). -/
def takeBitError (s : State) : State :=
  let n := min 4 (s.link.consecutiveErrors + 1)
  let s := { s.bump .bitErrors with link := { s.link with consecutiveErrors := n } }
  if 4 ≤ n then s.enterMute else { s with link := { s.link with transmitter := .breaking, driven := [] } }

/-- The frame under attempt has met one more bit error; its attempt has ended (R184). -/
def countFrameError (f : TxFrame) : TxFrame :=
  if f.attempted then { f with errors := f.errors + 1, attempted := false } else f

/-- The break ends: the line is released, and a frame at its third error is dropped and counted (R184). -/
def endBreaking (s : State) : State :=
  let q := s.link.transmitQueue.map countFrameError
  let kept := q.filter (fun f => f.errors < 3)
  let s := s.countDrops (q.length - kept.length)
  { s with link := { s.link with transmitQueue := kept, transmitter := restTransmitter kept, driven := [] } }

/-- The frame under attempt is an ANNOUNCE. -/
def sendsAnnounce (s : State) : Bool :=
  s.link.transmitQueue.any (fun f => f.attempted && f.body.kind = .announce)

/-- The frame under attempt has been sent whole: where the buffer holds it, it is the station's own (R180), and its noise
mark is that of the read-back (R185). -/
def takeSent (noise : Bool) (s : State) : State :=
  let q := s.link.transmitQueue.filter (fun f => !f.attempted)
  let noisy := noise || (s.link.bufferOwn && s.link.bufferNoise)
  { s with
    control := { s.control with
      causes := if s.sendsAnnounce then ⟨false, false, false⟩ else s.control.causes }
    link := { s.link with
      transmitQueue := q, transmitter := restTransmitter q, driven := [],
      consecutiveErrors := if noisy then s.link.consecutiveErrors else 0,
      ownSent := s.link.bufferOwn } }

/-- The bits of a break as its sender drives it: 16 bit times dominant, from the end of the erroneous bit (R184). -/
def breakBits : List Bool := List.replicate 16 false

/-- The bits that the station drives, recessive as true: in ARBITRATING and SENDING those of the frame under attempt, its
characters back to back (R173, R175, R183, R184); in BREAKING those of the break (R184); and none where its transmitter has
released the line (R182 to R186). -/
def drivenBits (s : State) : List Bool :=
  match s.link.transmitter with
  | .arbitrating | .sending => s.link.driven.flatMap Character.bits
  | .breaking => breakBits
  | .idle | .waitIdle | .mute => []

/-- The line monitor stands in a condition, and it runs: it does not while the pin holds the station in reset (R159,
R174, R189). -/
def monitorIn (m : Monitor) (s : State) : Bool := s.link.monitor = m && !s.control.held

end State

/-! ## Meanings -/

/-- LINE_BUSY (R174). -/
def execLineBusy (s : State) : Host.Outcome State Fault Refusal :=
  .next (if s.monitorIn .idle then { s with link := { s.link with monitor := .busy } } else s)

/-- LINE_IDLE (R174, R178 to R180). -/
def execLineIdle (s : State) : Host.Outcome State Fault Refusal :=
  .next (if s.monitorIn .busy then s.enterIdle else s)

/-- BREAK (R174). -/
def execLineBreak (s : State) : Host.Outcome State Fault Refusal :=
  .next (if s.monitorIn .busy then s.enterBreak else s)

/-- LINE_FAULT (R174). -/
def execLineFault (s : State) : Host.Outcome State Fault Refusal :=
  .next (if s.monitorIn .breakSeen then s.enterLineFault else s)

/-- LINE_FAULT_END (R174). -/
def execLineFaultEnd (s : State) : Host.Outcome State Fault Refusal :=
  .next (if s.monitorIn .lineFault then s.enterIdle else s)

/-- BREAK_LINE_RELEASED (R174). -/
def execBreakLineReleased (s : State) : Host.Outcome State Fault Refusal :=
  .next (if s.monitorIn .breakSeen then { s with link := { s.link with monitor := .busy } } else s)

/-- RECEIVE_CHARACTER (R178): an edge whose start bit is read recessive was a glitch, and no character is taken (R173);
the timestamp is the local time of the start bit's edge (R177). While the pin holds the station in reset the receiver
does not run (R159). -/
def execReceiveCharacter (c : LineCharacter) (edgeAge : Nat) (s : State) : Host.Outcome State Fault Refusal :=
  .next (if s.control.held || majority c.start then s
    else s.takeCharacter (majority c.mark) (characterByte c) (majority c.stop) (noisyCharacter c)
      (s.localTime - BitVec.ofNat 32 edgeAge))

/-- TRANSMIT_ATTEMPT (R182). -/
def execTransmitAttempt (onEdge : Bool) (s : State) : Host.Outcome State Fault Refusal :=
  .next (if s.attemptMayBegin onEdge then s.beginAttempt else s)

/-- ARBITRATION_LOSS (R183). -/
def execArbitrationLoss (s : State) : Host.Outcome State Fault Refusal :=
  .next (if s.link.transmitter = .arbitrating then s.loseArbitration else s)

/-- ARBITRATION_WON (R183). -/
def execArbitrationWon (s : State) : Host.Outcome State Fault Refusal :=
  .next (if s.link.transmitter = .arbitrating then { s with link := { s.link with transmitter := .sending } }
    else s)

/-- BIT_ERROR (R184, R186). -/
def execBitError (s : State) : Host.Outcome State Fault Refusal :=
  .next (if s.link.transmitter = .arbitrating ∨ s.link.transmitter = .sending then s.takeBitError else s)

/-- BREAKING_END (R184). -/
def execBreakingEnd (s : State) : Host.Outcome State Fault Refusal :=
  .next (if s.link.transmitter = .breaking then s.endBreaking else s)

/-- FRAME_SENT_WHOLE (R185). -/
def execFrameSentWhole (noise : Bool) (s : State) : Host.Outcome State Fault Refusal :=
  .next (if s.link.transmitter = .sending then s.takeSent noise else s)

end Sys2Proof.Machine
end

