-- ==== Sys2Proof/Machine/Temperature.lean ====
section
/-! DEFINITION. Pavement temperature (chapter 04): the temperature second with its five phases, the peer table, and the
meanings of TEMPERATURE_SECOND and TEMPERATURE. -/
namespace Sys2Proof.Machine

/-! ## The own probe -/

/-- The reading of a probe code; none when it is invalid (R52). -/
def probeReading (p : Params) (code : Nat) : Option Int :=
  if code < 1024 ∨ 64511 < code then none
  else
    let span : Int := (p.c100 : Int) - p.c0
    let t := (2000 * ((code : Int) - p.c0) + span).fdiv (2 * span)
    if t < -400 ∨ 800 < t then none else some t

/-- The reported filtered value T_f (R55). -/
def reported (filtered : Int) : Int := (filtered + 8).fdiv 16

namespace TempUnit

/-- T_f of the unit; 0 while unloaded, when nothing uses it. -/
def value (u : TempUnit) : Int := reported (u.filtered.getD 0)

/-- The filter takes a value at once and the own probe is VALID: the load of R53 and the reload of R57. -/
def loadFilter (t : Int) (u : TempUnit) : TempUnit :=
  { u with filtered := some (t * 16), spikes := [], holdAge := 0, status := .valid }

/-- An accepted reading (R54). -/
def acceptReading (p : Params) (t : Int) (u : TempUnit) : TempUnit :=
  let f := u.filtered.getD 0
  { u with filtered := some (f + (t * 16 - f).tdiv (2 ^ p.filterShift : Nat)), spikes := [],
           holdAge := 0, status := .valid }

/-- A second without an accepted reading: VALID goes to HOLD, and the hold age moves (R56, R58, R59). -/
def unaccepted (p : Params) (u : TempUnit) : TempUnit :=
  match u.status with
  | .valid => { u with status := .hold, holdAge := 1, suspect := false }
  | .hold =>
    { u with holdAge := u.holdAge + 1, status := if p.holdOwn < u.holdAge + 1 then .stale else .hold }
  | .absent | .starting | .stale => u

/-- A rejected reading joins the spike list (R56). -/
def joinSpikes (t : Int) (l : List Int) : List Int := if 3 ≤ l.length then l.tail ++ [t] else l ++ [t]

/-- Three rejected readings lie within J of each other (R57). -/
def isStep (jump : Nat) (l : List Int) : Bool :=
  l.length == 3 && l.all (fun a => l.all (fun b => a - b ≤ jump))

/-- A rejected reading: it joins the spike list, which is tested for a step (R56, R57, R59). -/
def rejectReading (p : Params) (t : Int) (u : TempUnit) : TempUnit :=
  let l := joinSpikes t u.spikes
  if isStep p.jump l then { u.loadFilter t with suspect := false }
  else { u.unaccepted p with spikes := l }

/-- The first phase: the reading of this second is handled (R51 to R59); whether it was rejected. -/
def probePhase (p : Params) (code : Nat) (u : TempUnit) : TempUnit × Bool :=
  match u.status with
  | .absent => (u, false)
  | .starting =>
    match probeReading p code with
    | some t => (u.loadFilter t, false)
    | none => (u, false)
  | .valid | .hold | .stale =>
    match probeReading p code with
    | some t =>
      if (t - u.value).natAbs ≤ p.jump then (u.acceptReading p t, false) else (u.rejectReading p t, true)
    | none => ({ u.unaccepted p with spikes := [] }, false)

/-! ## The peer table -/

/-- One entry is aged by a second; past 3600 it is no longer present (R62). -/
def agePeer (e : PeerEntry) : PeerEntry :=
  if e.present then { e with age := e.age + 1, present := e.age + 1 ≤ 3600 } else e

/-- The second phase: the peer table is aged (R62). -/
def agePeers (u : TempUnit) : TempUnit := { u with peers := u.peers.map agePeer }

/-- The values of the fresh entries (R62). -/
def freshValues (p : Params) (u : TempUnit) : List Int :=
  (u.peers.toList.filter (fun e => e.present && e.age ≤ p.freshAge)).map PeerEntry.value

/-- A value into a sorted list. -/
def insertValue (a : Int) : List Int → List Int
  | [] => [a]
  | b :: l => if a ≤ b then a :: b :: l else b :: insertValue a l

/-- The values in ascending order. -/
def sortValues (l : List Int) : List Int := l.foldr insertValue []

/-- The peer median; none when no entry is fresh (R63). -/
def median (l : List Int) : Option Int := (sortValues l)[(l.length - 1) / 2]?

/-! ## The effective temperature -/

/-- The SUSPECT decision (R60). -/
def decideSuspect (p : Params) (u : TempUnit) : TempUnit :=
  let fresh := u.freshValues p
  { u with suspect :=
      u.status = .valid && 2 ≤ fresh.length &&
        match median fresh with
        | some m => p.disagree < (u.value - m).natAbs
        | none => false }

/-- The effective temperature obtained from the probe or the peers: cases (a), (b) and (c) (R64). -/
def obtained (p : Params) (u : TempUnit) : Option (Int × Source) :=
  let m := median (u.freshValues p)
  if u.status = .valid ∧ u.suspect = false then some (u.value, .own)
  else
    match m with
    | some t => some (t, .peer)
    | none => if u.status = .hold then some (u.value, .ownHeld) else none

/-- The held age of a second whose choice falls past case (c) (R65). -/
def nextHeldAge (p : Params) (u : TempUnit) : Nat := min (p.holdEff + 1) (u.heldAge + 1)

/-- The third phase: SUSPECT, then the effective temperature with its source (R60, R64, R65). -/
def choose (p : Params) (u : TempUnit) : TempUnit × Int × Source :=
  let u := u.decideSuspect p
  match u.obtained p with
  | some (t, source) => ({ u with held := some t, heldAge := 0 }, t, source)
  | none =>
    let u := { u with heldAge := u.nextHeldAge p }
    match u.held with
    | some t => if u.heldAge ≤ p.holdEff then (u, t, .held) else (u, p.tempDefault, .default)
    | none => (u, p.tempDefault, .default)

/-- The fourth phase's test: a notice is queued at this second (R67). `running`: the station is in RUNNING. -/
def noticeDue (p : Params) (running : Bool) (u : TempUnit) : Bool :=
  running && u.status = .valid && !u.suspect &&
    match u.sinceNotice with
    | none => true
    | some n => p.noticePeriod ≤ n + 1

/-- The time since the last notice, after the fourth phase (R67). -/
def countNotice (queued : Bool) (u : TempUnit) : TempUnit :=
  { u with sinceNotice := if queued then some 0 else u.sinceNotice.map (fun n => n + 1) }

end TempUnit

namespace State

/-- A temperature second is due (R50). -/
def secondIsDue (s : State) : Bool := s.measuring && dueReached s.localTime s.temp.secondDue

/-- One temperature second, its five phases in order (R50). -/
def takeSecond (code : BitVec 16) (s : State) : State :=
  let p := s.control.params
  let r := s.temp.probePhase p code.toNat
  let c := r.1.agePeers.choose p
  let queued := c.1.noticeDue p (s.control.station = .running)
  let u := { c.1.countNotice queued with
    secondDue := s.temp.secondDue.map (fun t => later t Config.halfTicksPerSecond) }
  let s1 := { s with temp := u }
  let s2 := if r.2 then s1.bump .probeRejected else s1
  let s3 := if queued then s2.produce (.temperature c.1.value) else s2
  { s3 with assembler := { s3.assembler with handover := handoverOf p c.2.1 c.2.2 } }

/-- A TEMPERATURE of station `j` dispatched to the peer table (R61). -/
def takeTemperature (j : Nat) (value : Int) (s : State) : State :=
  if value < -400 ∨ 800 < value then s.bump .framesDiscarded
  else if h : j - 1 < 15 then
    { s with temp := { s.temp with
        peers := s.temp.peers.set (j - 1) { present := true, value := value, age := 0 } h } }
  else s

end State

/-- TEMPERATURE_SECOND (R50). -/
def execTemperatureSecond (code : BitVec 16) (s : State) : Host.Outcome State Fault Refusal :=
  .next (if s.secondIsDue then s.takeSecond code else s)

/-- TEMPERATURE (R61): a station that does not measure takes no notice (R68). -/
def execTemperature (s : State) : Host.Outcome State Fault Refusal :=
  match s.headOf .temperature with
  | some f =>
    .next (if s.measuring then s.dispatched.takeTemperature f.source (temperatureValue f.payload)
      else s.dispatched)
  | none => .next s

end Sys2Proof.Machine
end

