-- ==== Sys2Proof/Machine/Dispatch.lean ====
section
/-! DEFINITION. The dispatch of a command to its meaning, one arm per constructor of `Instr`. -/
namespace Sys2Proof.Machine

/-- The effect of a command on everything but the queue. -/
def exec (i : Instr) (s : State) : Host.Outcome State Fault Refusal :=
  match i with
  | .powerUp p => Sys2Proof.Machine.execPowerUp p s
  | .resetPin t r => Sys2Proof.Machine.execResetPin t r s
  | .memoryReady m c => Sys2Proof.Machine.execMemoryReady m c s
  | .noMemory => Sys2Proof.Machine.execNoMemory s
  | .statusDue => Sys2Proof.Machine.execStatusDue s
  | .clearLatch => Sys2Proof.Machine.execClearLatch s
  | .restart p => Sys2Proof.Machine.execRestart p s
  | .statusNow => Sys2Proof.Machine.execStatusNow s
  | .commandCodeUnknown => Sys2Proof.Machine.execCommandCodeUnknown s
  | .sample a b c d l => Sys2Proof.Machine.execSample a b c d l s
  | .leadExpiryByAge h => Sys2Proof.Machine.execLeadExpiryByAge h s
  | .orphanExpiryByAge h => Sys2Proof.Machine.execOrphanExpiryByAge h s
  | .halfRelease h => Sys2Proof.Machine.execHalfRelease h s
  | .loopTransition => Sys2Proof.Machine.execLoopTransition s
  | .gapTimer k => Sys2Proof.Machine.execGapTimer k s
  | .triggerDue => Sys2Proof.Machine.execTriggerDue s
  | .pulseEnd => Sys2Proof.Machine.execPulseEnd s
  | .gapEnd => Sys2Proof.Machine.execGapEnd s
  | .edgeWaitExpiry => Sys2Proof.Machine.execEdgeWaitExpiry s
  | .remoteNoticeExpiry h => Sys2Proof.Machine.execRemoteNoticeExpiry h s
  | .yieldHoldExpiry k => Sys2Proof.Machine.execYieldHoldExpiry k s
  | .halfAxle => Sys2Proof.Machine.execHalfAxle s
  | .transfer => Sys2Proof.Machine.execTransfer s
  | .yieldClosed => Sys2Proof.Machine.execYieldClosed s
  | .temperature => Sys2Proof.Machine.execTemperature s
  | .announce => Sys2Proof.Machine.execAnnounce s
  | .vehicleStatusDropped => Sys2Proof.Machine.execVehicleStatusDropped s
  | .temperatureSecond c => Sys2Proof.Machine.execTemperatureSecond c s
  | .eraseReady => Sys2Proof.Machine.execEraseReady s
  | .eraseTimeout => Sys2Proof.Machine.execEraseTimeout s
  | .programReady => Sys2Proof.Machine.execProgramReady s
  | .programTimeout => Sys2Proof.Machine.execProgramTimeout s
  | .verify b => Sys2Proof.Machine.execVerify b s
  | .lineBusy => Sys2Proof.Machine.execLineBusy s
  | .lineIdle => Sys2Proof.Machine.execLineIdle s
  | .lineBreak => Sys2Proof.Machine.execLineBreak s
  | .lineFault => Sys2Proof.Machine.execLineFault s
  | .lineFaultEnd => Sys2Proof.Machine.execLineFaultEnd s
  | .receiveCharacter c a => Sys2Proof.Machine.execReceiveCharacter c a s
  | .transmitAttempt o => Sys2Proof.Machine.execTransmitAttempt o s
  | .arbitrationLoss => Sys2Proof.Machine.execArbitrationLoss s
  | .bitError => Sys2Proof.Machine.execBitError s
  | .breakingEnd => Sys2Proof.Machine.execBreakingEnd s
  | .frameSentWhole n => Sys2Proof.Machine.execFrameSentWhole n s
  | .commandNotAddressed => Sys2Proof.Machine.execCommandNotAddressed s
  | .breakLineReleased => Sys2Proof.Machine.execBreakLineReleased s
  | .arbitrationWon => Sys2Proof.Machine.execArbitrationWon s

end Sys2Proof.Machine
end

