-- ==== Sys2Proof/Machine/Due.lean ====
section
/-! DEFINITION. The commands that the station itself brings about: the events of its clock, its queues and its waits
that are due at the current local time, which `step` puts in the queue when nothing waits (notes/assumptions/1). The
commands that the world outside brings (resets, straps, converter codes, the memory's answers, the line) are not
among them. -/
namespace Sys2Proof.Machine

/-- A command, when its event is due. -/
def whenDue (due : Bool) (c : Instr) : List Instr := if due then [c] else []

/-- A command of station control by its code, when it addresses this station; a RESTART needs the strap levels, so the
outside sends it (R166, notes/assumptions/1). -/
def addressedCommand (code : Nat) : List Instr :=
  match code with
  | 1 => [.clearLatch]
  | 2 => []
  | 3 => [.statusNow]
  | _ => [.commandCodeUnknown]

/-- The command that takes a frame of a source to its owner (R181). -/
def ownerCommand (k : Kind) (source : Nat) : List Instr :=
  match k with
  | .vehicle | .status => [.vehicleStatusDropped]
  | .command => []
  | .halfAxle => if source = 0 then [.vehicleStatusDropped] else [.halfAxle]
  | .transfer => if source = 0 then [.vehicleStatusDropped] else [.transfer]
  | .yieldClosed => if source = 0 then [.vehicleStatusDropped] else [.yieldClosed]
  | .temperature => if source = 0 then [.vehicleStatusDropped] else [.temperature]
  | .announce => if source = 0 then [.vehicleStatusDropped] else [.announce]

namespace State

/-- The dispatch of the head of the receive queue (R166, R181). -/
def dueDispatch (s : State) : List Instr :=
  match s.headFrame with
  | none => []
  | some f =>
    if f.kind = .command then
      if s.addressed (commandTarget f.payload) then addressedCommand (commandCode f.payload)
      else [.commandNotAddressed]
    else ownerCommand f.kind f.source

/-- The events of station control, the correction store and the transmitter that are due (R160, R137, R138, R169,
R182). -/
def dueControl (s : State) : List Instr :=
  whenDue s.memoryIsLost .noMemory ++ whenDue s.statusIsDue .statusDue ++
    whenDue (s.phaseOver .erasing) .eraseTimeout ++ whenDue (s.phaseOver .programming) .programTimeout ++
    whenDue (s.attemptMayBegin false) (.transmitAttempt false)

/-- The events of the pairing unit and the assembler that are due (R22, R28, R75, R82). -/
def dueAssembly (s : State) : List Instr :=
  whenDue (s.agedLead .left).isSome (.leadExpiryByAge .left) ++
    whenDue (s.agedLead .right).isSome (.leadExpiryByAge .right) ++
    whenDue (s.agedOrphan .left).isSome (.orphanExpiryByAge .left) ++
    whenDue (s.agedOrphan .right).isSome (.orphanExpiryByAge .right) ++
    whenDue (s.dueHalf .left).isSome (.halfRelease .left) ++
    whenDue (s.dueHalf .right).isSome (.halfRelease .right) ++
    whenDue s.loopIsDue .loopTransition ++
    whenDue (s.gapVehicle .openSlot).isSome (.gapTimer .openSlot) ++
    whenDue (s.gapVehicle .closingSlot).isSome (.gapTimer .closingSlot)

/-- The events of the boundary unit and the output unit that are due (R91, R96, R108, R150, R151). -/
def dueBoundary (s : State) : List Instr :=
  whenDue s.expiredEdge.isSome .edgeWaitExpiry ++
    whenDue (s.expiredNotice .left).isSome (.remoteNoticeExpiry .left) ++
    whenDue (s.expiredNotice .right).isSome (.remoteNoticeExpiry .right) ++
    whenDue (s.expiredHold .openSlot).isSome (.yieldHoldExpiry .openSlot) ++
    whenDue (s.expiredHold .closingSlot).isSome (.yieldHoldExpiry .closingSlot) ++
    whenDue s.triggerIsDue .triggerDue ++ whenDue s.pulseEndIsDue .pulseEnd ++
    whenDue s.gapEndIsDue .gapEnd

/-- Every event of the station's own that is due at the current local time. -/
def dueCommands (s : State) : List Instr :=
  s.dueControl ++ s.dueAssembly ++ s.dueBoundary ++ s.dueDispatch

/-- Local time moves on by one half-tick (00_scope, Units); it stands while the pin holds the station in reset (R159). -/
def advance (s : State) : State :=
  if s.control.held then s else { s with localTime := later s.localTime 1 }

/-- Nothing waits: the events that are due enter the queue, two or more of them in an order that the manual leaves
free; with none due, local time moves on (notes/assumptions/1, 2). -/
def tick (s : State) : State :=
  match s.dueCommands with
  | [] => s.advance
  | [c] => { s with pending := [c] }
  | c :: d :: rest => { s.drawn with pending := inOrder s.drawOrder (c :: d :: rest) }

end State
end Sys2Proof.Machine
end

