-- ==== Sys2Proof/Machine/Step.lean ====
section
/-! DEFINITION. The step: the command at the front of the queue is taken; with none waiting, the station ticks. And the
placing of a command in front of the queue for a word that spells one. -/
namespace Sys2Proof.Machine

/-- One step: the command at the front of the queue runs on the state with the rest of the queue; on an empty queue
the station's own clock acts (notes/assumptions/1). -/
def step (s : State) : Host.Outcome State Fault Refusal :=
  match s.pending with
  | c :: rest => exec c { s with pending := rest }
  | [] => .next s.tick

/-- The state with the command that a word spells in front of its queue; no word spells one
(notes/assumptions/24). -/
def State.withFetchWord (s : State) (nbits w : Nat) : State :=
  match decodeTableWord nbits w with
  | some c => { s with pending := c :: s.pending }
  | none => s

end Sys2Proof.Machine
end

