-- ==== Sys2Proof/Safety.lean ====
section
/-! DEFINITION. What a sound station is: the capacities of its lists and queues, the ranges of its values, the order of
its transmit queue, what a station that does not measure leaves alone, and which commands are resets. The claims
are stated in these terms. -/
namespace Sys2Proof.Machine.Safety

/-! ## Small vocabulary of the claims -/

/-- The counters after the counter at place `n` of R170, from 0, has added 1. -/
def counted (n : Fin 16) (v : Vector Nat 16) : Vector Nat 16 := v.set n (min 65535 (v[n] + 1))

/-- The transmit queue that holds one new frame alone. -/
def queued (b : Body) : List TxFrame := [{ body := b, errors := 0, attempted := false }]

/-- The commands that are resets (R159, R167): POWER_UP; a RESET_PIN low for 100 µs or longer, released or still held; a
RESTART, which is counted among them whether it addresses this station or, as another station's, changes nothing. -/
def isReset : Instr → Prop
  | .powerUp _ => True
  | .resetPin lowMicros _ => 100 ≤ lowMicros
  | .restart _ => True
  | _ => False

/-- The head of the receive queue is a frame that the dispatcher takes. -/
def headIs (f : RxFrame) (s : State) : Prop :=
  s.control.station ≠ .starting ∧ s.link.receiveQueue.head? = some f

/-- The receive queue without its head. -/
def withoutHead (l : Link) : Link := { l with receiveQueue := l.receiveQueue.tail }

/-- The list of pulses of a half stands at a place of the pairing unit. -/
def listsOf (s : State) (h : Half) : HalfLists :=
  match h with
  | .left => s.pairs.left
  | .right => s.pairs.right

/-- The pairing unit with the collections of one half replaced. -/
def withLists (s : State) (h : Half) (l : HalfLists) : PerHalf HalfLists :=
  match h with
  | .left => { s.pairs with left := l }
  | .right => { s.pairs with right := l }

/-! ## Axles placed in the open vehicle -/

/-- An observation holds one half at least, and each half on its own side (R27, R31). -/
def Sided (o : Observation) : Prop :=
  (o.left ≠ none ∨ o.right ≠ none) ∧ (∀ l, o.left = some l → l.half = .left) ∧ ∀ r, o.right = some r → r.half = .right

/-- The observation meets no transferred axle that it would fill: it has two halves, or the vehicle is no OWNER one without
PARTNER-LOST of its direction, or holds no axle within K whose one half is remote and on the other side (R106). -/
def StandsAlone (p : Params) (o : Observation) (v : Vehicle) : Prop :=
  v.pairing = .owner → v.flags.partnerLost = false → o.direction = v.direction → ∀ b ∈ v.axles,
    (b.time - o.time).toInt.natAbs ≤ p.matchWindow → ∀ m : HalfLoad, m.remote = true →
    ¬ (o.right = none ∧ b.left = none ∧ b.right = some m ∨ o.left = none ∧ b.right = none ∧ b.left = some m)

/-- The axle that an observation becomes, its loads computed with a factor and a correction (R35, R43). -/
def loadedWith (p : Params) (factor correction tag index : Nat) (o : Observation) : Axle :=
  { tag := tag, index := index, time := o.time, speed := o.speed, direction := o.direction
    left := o.left.map (halfLoad p factor correction), right := o.right.map (halfLoad p factor correction) }

/-- What follows the placement of an axle in the open vehicle: a YIELDED vehicle forwards it in RUNNING, as a TRANSFER that it
counts, and in MUTE does not (R103); in another vehicle an axle of direction FORWARD whose one half faces a configured
neighbour, which is the peer of an OWNER one, is admitted as an edge axle unless the vehicle carries PARTNER-LOST (R90), and
otherwise nothing follows. -/
def AfterPlacing (v : Vehicle) (a : Axle) (s t : State) : Prop :=
  let lone := fun (h : Half) (l : HalfLoad) => match h with
    | .left => a.left = some l ∧ a.right = none
    | .right => a.right = some l ∧ a.left = none
  let edge := fun (h : Half) (l : HalfLoad) => lone h l ∧ a.direction = .forward ∧
    s.control.params.neighbour.get h ≠ 0 ∧ v.flags.partnerLost = false ∧
    (v.pairing = .unpaired ∨ v.pairing = .owner ∧ s.control.params.neighbour.get h = v.peer)
  (v.pairing ≠ .yielded → (∀ h l, ¬ edge h l) → t = s) ∧
  (∀ h l, edge h l → t = s.admitEdge v a h l) ∧
  (v.pairing = .yielded → s.control.station = .running → t =
    ({ s with assembler := { s.assembler with
      openVehicle := some { v with forwarded := v.forwarded + 1 } } } : State).produce
      (.transfer v.peer v.peerVehicle a.time a.speed (a.left.map HalfLoad.load) (a.right.map HalfLoad.load)
        a.index a.saturated a.mismatch)) ∧
  (v.pairing = .yielded → s.control.station = .mute .fromRunning → t = s)

/-! ## Capacities -/

/-- A vehicle in a slot holds 1 to 12 axles (05, The vehicle context). -/
def VehicleFits (o : Option Vehicle) : Prop :=
  ∀ v, o = some v → 1 ≤ v.axles.length ∧ v.axles.length ≤ 12

/-- The lists of both halves hold at most 8 leads and 4 orphans, and a slot holds a half-axle of its side (R19). -/
def PairsFit (p : PerHalf HalfLists) : Prop :=
  p.left.leads.length ≤ 8 ∧ p.right.leads.length ≤ 8 ∧ p.left.orphans.length ≤ 4 ∧
    p.right.orphans.length ≤ 4 ∧ (∀ h, p.left.slot = some h → h.half = .left) ∧
    ∀ h, p.right.slot = some h → h.half = .right

/-- The edge list holds at most 4 entries, each remote list at most 8 notices (R91, R96). -/
def BoundaryFits (b : Boundary) : Prop :=
  b.edges.length ≤ 4 ∧ b.remote.left.length ≤ 8 ∧ b.remote.right.length ≤ 8

/-- The link holds at most 8 received frames, 12 frames to send, 100 characters and 4 consecutive errors, and no
queued frame more than 2 errors (11, the link controller's context). -/
def LinkFits (l : Link) : Prop :=
  l.receiveQueue.length ≤ 8 ∧ l.transmitQueue.length ≤ 12 ∧ l.buffer.length ≤ 100 ∧
    l.consecutiveErrors ≤ 4 ∧ ∀ f ∈ l.transmitQueue, f.errors ≤ 2

/-- The prepared curve holds at most 8 points, the class table at most 24 entries of at most 6 conditions (R44, R114,
R115). -/
def ParamsFit (p : Params) : Prop :=
  p.curve.length ≤ 8 ∧ p.classTable.length ≤ 24 ∧ ∀ e ∈ p.classTable, e.conditions.length ≤ 6

/-- Every list and queue is within its capacity. -/
def FitsCapacities (s : State) : Prop :=
  PairsFit s.pairs ∧ VehicleFits s.assembler.openVehicle ∧ VehicleFits s.assembler.closingVehicle ∧
    BoundaryFits s.boundary ∧ s.temp.spikes.length ≤ 3 ∧ s.output.triggers.length ≤ 4 ∧ LinkFits s.link ∧
    ParamsFit s.control.params

/-! ## Ranges -/

/-- Every counter is at most 65,535 (R170). -/
def CountersFit (s : State) : Prop := ∀ n : Fin 16, s.counters[n] ≤ 65535

/-- A correction within 3686..4506 (R133). -/
def correctionInRange (c : Nat) : Prop := 3686 ≤ c ∧ c ≤ 4506

/-- Every band correction, and the correction latched by a vehicle, lies within 3686..4506 (R133, R141, R142). -/
def CorrectionsFit (s : State) : Prop :=
  (∀ b : Fin 8, correctionInRange s.drift.bands[b].correction) ∧
    (∀ v, s.assembler.openVehicle = some v → correctionInRange v.correction) ∧
    ∀ v, s.assembler.closingVehicle = some v → correctionInRange v.correction

/-- A temperature within the plausible range (00_scope, Units). -/
def plausible (t : Int) : Prop := -400 ≤ t ∧ t ≤ 800

/-- Every temperature that the unit holds or hands over, or a vehicle has latched, is plausible (R54, R61, R64, R65,
R72). -/
def TemperaturesFit (s : State) : Prop :=
  (∀ f, s.temp.filtered = some f → -6400 ≤ f ∧ f ≤ 12800) ∧
    (∀ j : Fin 15, s.temp.peers[j].present = true → plausible s.temp.peers[j].value) ∧
    (∀ t, s.temp.held = some t → plausible t) ∧ plausible s.control.params.tempDefault ∧
    plausible s.assembler.handover.temp ∧
    (∀ v, s.assembler.openVehicle = some v → plausible v.latched.temp) ∧
    ∀ v, s.assembler.closingVehicle = some v → plausible v.latched.temp

/-- What stands beside an own status (04, The own probe; R51, R53, R59, R60): SUSPECT only beside VALID, a hold age
beside HOLD, the filter loaded from the first accepted reading on. -/
def ProbeConsistent (s : State) : Prop :=
  (s.temp.suspect = true → s.temp.status = .valid) ∧
    (s.temp.status = .absent ∨ s.temp.status = .starting →
      s.temp.filtered = none ∧ s.temp.spikes = [] ∧ s.temp.holdAge = 0) ∧
    (s.temp.status = .valid → s.temp.holdAge = 0) ∧
    (s.temp.status = .valid ∨ s.temp.status = .hold ∨ s.temp.status = .stale → s.temp.filtered ≠ none)

/-! ## The transmit queue -/

/-- The transmit queue is ordered by class, holds at most one frame of each single-instance kind, and holds exactly
the frame under attempt while the transmitter has one under attempt (R187). -/
def QueueOrdered (l : Link) : Prop :=
  l.transmitQueue.Pairwise (fun f g => f.body.kind.priority ≤ g.body.kind.priority) ∧
    (∀ k, k = Kind.announce ∨ k = Kind.status ∨ k = Kind.temperature →
      (l.transmitQueue.filter (fun f => f.body.kind == k)).length ≤ 1) ∧
    (l.transmitQueue.filter TxFrame.attempted).length =
      (if l.transmitter = .arbitrating ∨ l.transmitter = .sending ∨ l.transmitter = .breaking then 1 else 0)

/-- The transmitter is IDLE only with an empty queue and WAIT-IDLE only with a frame (R182); in MUTE and in STARTING
nothing is queued, and it stands in its MUTE state exactly while the station is in MUTE (R163, R186, R189). It holds the
characters of a frame only in ARBITRATING and SENDING, which drive them (R183 to R186). -/
def TransmitterMatchesQueue (s : State) : Prop :=
  (s.link.transmitter = .idle → s.link.transmitQueue = []) ∧
    (s.link.transmitter = .waitIdle → s.link.transmitQueue ≠ []) ∧
    (s.control.station = .starting → s.link.transmitter = .idle ∧ s.link.receiveQueue = []) ∧
    (s.link.transmitter = .mute ↔ ∃ o, s.control.station = .mute o) ∧
    (s.link.transmitter = .mute → s.link.transmitQueue = []) ∧
    (s.link.transmitter = .arbitrating ∨ s.link.transmitter = .sending ∨ s.link.driven = [])

/-! ## The frame buffer -/

/-- The frame buffer holds characters just in IN-FRAME (R178), and only a frame in it is the station's own, under attempt or
sent whole (R179, R180). -/
def BufferInFrame (l : Link) : Prop :=
  (l.receiver = .inFrame ↔ l.buffer ≠ []) ∧ (l.bufferOwn = true ∨ l.ownSent = true → l.receiver = .inFrame)

/-! ## A station that does not measure -/

/-- The measuring blocks stand as a reset left them (R15, R33, R68, R88, R112, R144, R152, R156). -/
def MeasuringBlocksReset (s : State) : Prop :=
  s.channels = State.reset.channels ∧ s.pairs = State.reset.pairs ∧
    s.assembler.lastNumber = 0 ∧ s.assembler.openVehicle = none ∧ s.assembler.closingVehicle = none ∧
    s.assembler.loop = State.reset.assembler.loop ∧ s.boundary = State.reset.boundary ∧
    s.temp = State.reset.temp ∧ s.drift.bands = State.reset.drift.bands ∧ s.drift.saveCount = 0 ∧
    s.drift.defaulted = false ∧ s.drift.store = .idle ∧ s.drift.again = false ∧ s.drift.snapshot = none ∧
    s.drift.phaseDue = none ∧ s.output = State.reset.output

/-- A station in STARTING, in HALTED or in MUTE entered from HALTED has its measuring blocks as a reset left them, and
a disabled channel stands as reset left it in every state (R1, R2); while the pin holds the station in reset it is
STARTING at local time 0 with its line monitor as reset left it, and its fault line is released (R157, R159). -/
def IdleWhereNotMeasuring (s : State) : Prop :=
  (s.control.station = .starting ∨ s.control.station = .halted ∨ s.control.station = .mute .fromHalted →
      MeasuringBlocksReset s) ∧
    (∀ c : Chan, s.control.params.gain.get c = 0 → s.channels.get c = Channel.reset) ∧
    (s.control.held = true → s.control.station = .starting ∧ s.localTime = 0 ∧ s.link.monitor = .busy ∧
      s.faultLine = false)

end Sys2Proof.Machine.Safety
end

