-- ==== Sys2Proof/Certificates/Slice0/Obligations.lean ====
section
/-! DEFINITION. The statements for the provers: what each command does, which states every step keeps, and which
functions of the manual the station computes. -/
open Sys2Proof
open Sys2Proof.Machine
open Sys2Proof.Machine.Safety

/-! ## The step and the whole station -/

/-- A step takes the command at the front of the queue and runs it on the state with the rest of the queue. -/
def Obligations.StepRunsFrontCommand : Prop :=
  ∀ (c : Instr) (rest : List Instr) (s : State),
    step { s with pending := c :: rest } = exec c { s with pending := rest }

/-- THE MODEL'S CHOICE (notes/assumptions/1, 2, 9, 17): with an empty queue, the events that are due enter the queue in some
order and nothing else changes but the count of free values; with none due, local time moves on by one half-tick, and
stands while the reset pin holds the station. Exactly these are the station's own events that are due, each by its
rule: NO_MEMORY (R160), STATUS_DUE (R169), the expiries by age (R22), a release (R28), a loop transition (R75), the gap
timers (R82), the waits (R91, R96, R108), the outputs (R150, R151), the timeouts (R137, R138), an attempt on an idle line
(R182), and the dispatch of the head of the receive queue (R166, R181) but for a RESTART. R182 begins an attempt when the
monitor enters IDLE; that it is due at every instant at which the transmitter waits and the line is IDLE is the model's
reading (notes/assumptions/17). -/
def Obligations.IdleStepQueuesDueOrAdvances : Prop :=
  ∀ s : State,
    let p := s.control.params
    let passed := fun (t : LocalTime) => 0 ≤ (s.localTime - t).toInt
    let even := s.localTime.toNat % 2 = 0
    let aged := fun (x : Pulse) => (s.localTime - x.time).toInt - (p.maxPulse + 2 : Nat) >
      (p.spacing * 16384 / 1000 : Nat)
    let waited := fun (t : LocalTime) => (s.localTime - t).toInt > (p.edgeWait * 16384 / 1000 : Nat)
    let closing := fun (x : HalfAxle) => match x.direction with
      | .forward => x.trailTime
      | .reverse => x.leadTime
    let standsIn := fun (k : Slot) (v : Vehicle) => match k with
      | .openSlot => s.assembler.openVehicle = some v
      | .closingSlot => s.assembler.closingVehicle = some v
    let remote := fun (h : Half) => match h with
      | .left => s.boundary.remote.left
      | .right => s.boundary.remote.right
    let measures := s.control.station = .running ∨ s.control.station = .mute .fromRunning
    let mine := fun (f : RxFrame) => commandTarget f.payload = 0 ∨ commandTarget f.payload = s.control.number
    let told := fun (code : Nat) =>
      ∃ f, headIs f s ∧ f.kind = .command ∧ mine f ∧ commandCode f.payload = code
    let sent := fun (k : Kind) => ∃ f, headIs f s ∧ f.kind = k ∧ f.source ≠ 0
    let due : Instr → Prop := fun c => match c with
      | .noMemory => s.control.station = .starting ∧ s.control.held = false ∧ even ∧ 32768 ≤ s.localTime.toNat
      | .statusDue => ∃ t, s.control.statusDue = some t ∧ passed t
      | .clearLatch => told 1
      | .statusNow => told 3
      | .commandCodeUnknown => ∃ code, told code ∧ (code = 0 ∨ 4 ≤ code)
      | .commandNotAddressed => ∃ f, headIs f s ∧ f.kind = .command ∧ ¬ mine f
      | .vehicleStatusDropped => ∃ f, headIs f s ∧
        (f.kind = .vehicle ∨ f.kind = .status ∨ f.source = 0 ∧ f.kind ≠ .command)
      | .halfAxle => sent .halfAxle
      | .transfer => sent .transfer
      | .yieldClosed => sent .yieldClosed
      | .temperature => sent .temperature
      | .announce => sent .announce
      | .leadExpiryByAge h => measures ∧ even ∧ ∃ x ∈ (listsOf s h).leads, aged x
      | .orphanExpiryByAge h => measures ∧ even ∧ ∃ x ∈ (listsOf s h).orphans, aged x
      | .halfRelease h => measures ∧ even ∧ ∃ x, (listsOf s h).slot = some x ∧
        passed (closing x + BitVec.ofNat 32 (p.skew + (p.maxPulse + 2)))
      | .loopTransition => measures ∧ even ∧ p.loopFitted = true ∧ s.assembler.loop.count = 3 ∧
        s.assembler.loop.qualified ≠ some s.assembler.loop.level
      | .gapTimer k => measures ∧ even ∧ ∃ v, standsIn k v ∧ v.gapDueMark = false ∧ passed v.gapDue ∧
        ∀ x, s.pairs.left.slot = some x ∨ s.pairs.right.slot = some x → 0 ≤ (x.leadTime - v.gapDue).toInt
      | .edgeWaitExpiry => measures ∧ even ∧ ∃ e ∈ s.boundary.edges, waited e.joined
      | .remoteNoticeExpiry h => measures ∧ even ∧ ∃ n ∈ remote h, waited n.accepted
      | .yieldHoldExpiry k => measures ∧ even ∧ ∃ v t, standsIn k v ∧ v.pairing = .owner ∧
        v.yieldClosed = false ∧ v.flags.partnerLost = false ∧ v.holdDue = some t ∧ passed t
      | .triggerDue => s.output.camera = .idle ∧ ∃ t ∈ s.output.triggers.head?, passed t
      | .pulseEnd => s.output.camera = .pulse ∧ ∃ t, s.output.cameraEnd = some t ∧ passed t
      | .gapEnd => s.output.camera = .gap ∧ ∃ t, s.output.cameraEnd = some t ∧ passed t
      | .eraseTimeout => s.drift.store = .erasing ∧ even ∧ ∃ t, s.drift.phaseDue = some t ∧ passed t
      | .programTimeout => s.drift.store = .programming ∧ even ∧ ∃ t, s.drift.phaseDue = some t ∧ passed t
      | .transmitAttempt onEdge => onEdge = false ∧ s.link.transmitter = .waitIdle ∧ s.link.monitor = .idle
      | .powerUp _ | .resetPin _ _ | .memoryReady _ _ | .restart _ | .sample _ _ _ _ _ | .temperatureSecond _
      | .eraseReady | .programReady | .verify _ | .lineBusy | .lineIdle | .lineBreak | .lineFault
      | .lineFaultEnd | .receiveCharacter _ _ | .arbitrationLoss | .bitError | .breakingEnd
      | .frameSentWhole _ | .breakLineReleased | .arbitrationWon => False
    (∀ c, c ∈ s.dueCommands ↔ due c) ∧
    (s.pending = [] → s.dueCommands = [] → step s = .next (if s.control.held then s
      else { s with localTime := s.localTime + 1 })) ∧
    (s.pending = [] → s.dueCommands ≠ [] → ∃ (l : List Instr) (n : Nat), l.Perm s.dueCommands ∧
      step s = .next { s with pending := l, freeCount := n })

/-- THE MODEL'S READING of what a command is (notes/assumptions/1, 3, 8, 39), beside R159, which puts local time at 0 at a
reset: a command leaves the queue of waiting commands alone and takes no local time, MEMORY_READY with its whole flow
included. -/
def Obligations.CommandsLeaveQueueAndTime : Prop :=
  ∀ (c : Instr) (s t : State), exec c s = .next t →
    t.pending = s.pending ∧ (t.localTime = s.localTime ∨ isReset c ∧ t.localTime = 0)

/-- The station state moves as the table of R163 gathers, under every command; only a reset ends or begins a hold on the
reset pin; and between the end of STARTING and the next reset no command changes the strap values, the parameter set, the
image state, its revision or the config adjusted mark (R159, R162). -/
def Obligations.StationStateMovesAsTabled : Prop :=
  ∀ (c : Instr) (s t : State), exec c s = .next t →
    (t.control.station = s.control.station ∨
      (isReset c ∧ (t.control.station = .starting ∨ t.control.station = .halted ∧ t.control.number = 0)) ∨
      (s.control.station = .starting ∧ t.control.station = .running ∧ t.control.image = .good) ∨
      (s.control.station = .starting ∧ t.control.station = .halted ∧
        (t.control.image = .noMemory ∨ t.control.image = .badFormat ∨ t.control.image = .badLength ∨
          t.control.image = .badCheck)) ∨
      (s.control.station = .running ∧ t.control.station = .mute .fromRunning) ∨
      (s.control.station = .halted ∧ t.control.station = .mute .fromHalted)) ∧
    (¬ isReset c → t.control.held = s.control.held) ∧
    (¬ isReset c → s.control.station ≠ .starting →
      t.control.params = s.control.params ∧ t.control.number = s.control.number ∧
        t.control.rate = s.control.rate ∧ t.control.image = s.control.image ∧
        t.control.revision = s.control.revision ∧ t.control.adjusted = s.control.adjusted)

/-- No command but a reset lowers a counter: each stays where it is or rises, to 65,535 at most (R170). -/
def Obligations.CountersRiseUntilReset : Prop :=
  ∀ (c : Instr) (s t : State), exec c s = .next t → ¬ isReset c → CountersFit s →
    CountersFit t ∧ ∀ n : Fin 16, s.counters[n] ≤ t.counters[n]

/-- Every step keeps every list and queue within its capacity: the lists of the halves, a vehicle's axles, the edge and
remote lists, the spike list, the triggers, the queues and the buffer of the link, the prepared curve (8), the class
table (24) and its conditions (6). -/
def Obligations.StepKeepsCapacities : Prop :=
  ∀ s t : State, FitsCapacities s → step s = .next t → FitsCapacities t

/-- Every step keeps the counters within 65,535, every band correction, held or latched, within 3686..4506, and every
temperature plausible, held, handed over or latched. -/
def Obligations.StepKeepsRanges : Prop :=
  ∀ s t : State, CountersFit s → CorrectionsFit s → TemperaturesFit s → step s = .next t →
    CountersFit t ∧ CorrectionsFit t ∧ TemperaturesFit t

/-- Every step keeps what stands beside an own status, keeps the measuring blocks of a station that does not measure as a
reset left them, and keeps a station held on the reset pin in its state after reset with its fault line released
(notes/assumptions/9). -/
def Obligations.StepKeepsBlocks : Prop :=
  ∀ s t : State, IdleWhereNotMeasuring s → ProbeConsistent s → step s = .next t →
    IdleWhereNotMeasuring t ∧ ProbeConsistent t

/-- Every step keeps the order of the transmit queue, its single kinds and its one frame under attempt, the transmitter
in step with its queue and with the characters it drives, the MUTE and STARTING station silent, and the frame buffer empty
outside IN-FRAME. -/
def Obligations.StepKeepsLink : Prop :=
  ∀ s t : State, QueueOrdered s.link → TransmitterMatchesQueue s → BufferInFrame s.link → step s = .next t →
    QueueOrdered t.link ∧ TransmitterMatchesQueue t ∧ BufferInFrame t.link

/-- The state after reset meets every invariant above; the values that the manual does not state are the model's choice
(notes/assumptions/2, 5, 6, 20, 22, 32, 41). -/
def Obligations.ResetMeetsInvariants : Prop :=
  FitsCapacities State.reset ∧ CountersFit State.reset ∧ CorrectionsFit State.reset ∧
    TemperaturesFit State.reset ∧ ProbeConsistent State.reset ∧ QueueOrdered State.reset.link ∧
    TransmitterMatchesQueue State.reset ∧ BufferInFrame State.reset.link ∧ IdleWhereNotMeasuring State.reset

/-! ## Resets, the start, commands and status -/

/-- POWER_UP, the release of a RESET_PIN low for at least 100 µs and a RESTART that addresses the station each put every
block in its state after reset, with the straps read, local time at 0 and the reset cause set as R168 says; straps of 0
end the start at once in HALTED, with no frame and no status due time (R159, R165). While the pin is low, from 100 µs
on, it holds the station in reset: local time stands at 0 and the camera, overload and fault lines are released (R157,
R159); a shorter low leaves the station as it stands. The two fields that are the model's own, the queue of commands and
the count of free values, stay. The values of the parameter set and of the handover while no image is prepared, the
record of the memory port, and the straps, causes and station state while the pin is low are the model's choice
(notes/assumptions/6, 9, 20, 22, 32, 41). -/
def Obligations.ResetsReinitialise : Prop :=
  ∀ (p : Straps) (s : State),
    let number := 8 * p.station8.toNat + 4 * p.station4.toNat + 2 * p.station2.toNat + p.station1.toNat
    let rate := match p.rate1, p.rate2 with
      | false, false => BitRate.kbit125
      | false, true => BitRate.kbit250
      | true, false => BitRate.kbit500
      | true, true => BitRate.kbit1000
    let after := fun (causes : Causes) =>
      { State.reset with
        control := { State.reset.control with
          number := number, rate := rate, causes := causes,
          station := if number = 0 then .halted else .starting }
        drift := { State.reset.drift with port := if number = 0 then [] else [.readStatus] }
        freeCount := s.freeCount, pending := s.pending }
    exec (.powerUp p) s = .next (after ⟨true, false, false⟩) ∧
    (∀ lowMicros, 100 ≤ lowMicros →
      exec (.resetPin lowMicros (some p)) s = .next (after { s.control.causes with pin := true })) ∧
    (∀ lowMicros, 100 ≤ lowMicros → ∃ t : State, exec (.resetPin lowMicros none) s = .next t ∧
      t = { State.reset with
        control := { State.reset.control with
          held := true, number := s.control.number, rate := s.control.rate, causes := s.control.causes }
        drift := { State.reset.drift with port := [] }
        freeCount := s.freeCount, pending := s.pending } ∧
      t.cameraLine = false ∧ t.overloadLine = false ∧ t.faultLine = false) ∧
    (∀ lowMicros release, lowMicros < 100 → exec (.resetPin lowMicros release) s = .next s) ∧
    (∀ f, headIs f s → f.kind = .command → f.payload.length = 2 →
      (commandTarget f.payload = 0 ∨ commandTarget f.payload = s.control.number) →
      commandCode f.payload = 2 →
      exec (.restart p) s = .next (after { s.control.causes with command := true }))

/-- MEMORY_READY with a GOOD image, at a numbered station in STARTING, at a sample instant after the first read and within
the answer limit, enters RUNNING: the parameter set is prepared, a good correction record loads the clamped corrections
and any other defaults them, the own probe is STARTING or ABSENT, the first temperature second falls, the camera line's
gap end is set, an ANNOUNCE is queued and the status due time is set (R137, R141, R142, R160, R162, R164). That all of it
happens at one instant is the model's choice (notes/assumptions/8, 32, 33). -/
def Obligations.GoodImageEntersRunning : Prop :=
  ∀ (image correction : List Byte) (s : State),
    s.control.station = .starting → s.control.held = false → s.localTime.toNat % 2 = 0 →
    0 < (s.localTime - s.drift.phaseAt).toInt → s.localTime.toNat ≤ 32768 → checkImage image = .good →
    correction.length = 36 → s.link.transmitQueue = [] → s.link.transmitter = .idle →
    let r := prepareImage s.control.number image
    let p := r.value
    ∃ t : State, exec (.memoryReady image correction) s = .next t ∧
      t.control = { s.control with
        station := .running, image := .good, revision := u16At image 3, params := p, adjusted := r.adjusted,
        statusDue := some (s.localTime + BitVec.ofNat 32 (16384 * p.statusPeriod)) } ∧
      (goodCorrection correction = true → t.drift.defaulted = false ∧
        t.drift.saveCount = u16At correction 32 ∧
        ∀ b : Fin 8, t.drift.bands[b] =
          { correction := max 3686 (min 4506 (u16At correction (2 * b.val))), count := 0, sum := 0,
            updates := u16At correction (16 + 2 * b.val) }) ∧
      (goodCorrection correction = false → t.drift.defaulted = true ∧ t.drift.saveCount = 0 ∧
        ∀ b : Fin 8, t.drift.bands[b] = { correction := 4096, count := 0, sum := 0, updates := 0 }) ∧
      t.temp = { s.temp with
        status := if p.probeFitted then .starting else .absent, secondDue := some s.localTime } ∧
      t.output = { s.output with cameraEnd := some (s.localTime +
        BitVec.ofNat 32 (p.pulseWidth * 16384 / 1000 + p.pulseGap * 16384 / 1000)) } ∧
      t.link = { s.link with
        transmitQueue := queued (.announce p.lane p.neighbour.left p.neighbour.right .good r.adjusted
          t.drift.defaulted s.control.causes (u16At image 3))
        transmitter := .waitIdle } ∧
      t.assembler.handover = {
        temp := p.tempDefault
        source := .default
        factor := tempFactor p.curve p.tempDefault
        band := tempBand p.tempBase p.bandWidth p.tempDefault } ∧
      t.channels = s.channels ∧ t.pairs = s.pairs ∧ t.boundary = s.boundary ∧ t.counters = s.counters

/-- A numbered station in STARTING whose memory gives no ready by local time 32,768, or whose image fails a check,
enters HALTED with that image state, queues an ANNOUNCE that shows it and sends its STATUS every 60 s (R160, R161,
R165). The checks go in their order: the format number is 3; the length lies in 99..4,094 and is what the counts give as
written, `place k` being the address of class entry k and every count byte lying below the length; the check word is the
sum of the bytes before it (R161). That all of it happens at one instant, and the record of the port, are the model's
choice (notes/assumptions/8, 22, 32, 33). -/
def Obligations.FailedStartHalts : Prop :=
  (∀ s : State, s.control.station = .starting → s.control.held = false → s.control.number ≠ 0 →
    s.localTime.toNat % 2 = 0 → s.link.transmitQueue = [] → s.link.transmitter = .idle →
    let halted := fun (i : ImageState) (d : Drift) =>
      { s with
        control := { s.control with
          station := .halted, image := i, statusDue := some (s.localTime + BitVec.ofNat 32 (16384 * 60)) }
        drift := d
        link := { s.link with
          transmitQueue := queued (.announce 0 0 0 i false false s.control.causes 0)
          transmitter := .waitIdle } }
    (32768 ≤ s.localTime.toNat → exec .noMemory s = .next (halted .noMemory s.drift)) ∧
    (∀ image correction, 0 < (s.localTime - s.drift.phaseAt).toInt → s.localTime.toNat ≤ 32768 →
      checkImage image ≠ .good →
      ∃ d, exec (.memoryReady image correction) s = .next (halted (checkImage image) d) ∧
        d = { s.drift with port := d.port })) ∧
  ∀ (image : List Byte) (place : Nat → Nat),
    let length := u16At image 1
    let countAt := 99 + 4 * byteAt image 98
    place 0 = countAt + 1 → (∀ k, place (k + 1) = place k + 17 + 5 * byteAt image (place k + 16)) →
    let lengthHolds := 99 ≤ length ∧ length ≤ 4094 ∧ countAt < length ∧
      (∀ k < byteAt image countAt, place k + 16 < length) ∧ place (byteAt image countAt) = length
    let sumHolds := byteSum (image.take length) % 65536 = u16At image length
    (byteAt image 0 ≠ 3 → checkImage image = .badFormat) ∧
    (byteAt image 0 = 3 → ¬ lengthHolds → checkImage image = .badLength) ∧
    (byteAt image 0 = 3 → lengthHolds → ¬ sumHolds → checkImage image = .badCheck) ∧
    (byteAt image 0 = 3 → lengthHolds → sumHolds → checkImage image = .good)

/-- Every parameter of a prepared image is the clamp of its raw field to the range of the parameter table (R162; fields: 11,
Sector 0): a neighbour that names the station's own number is 0, a yes/no field is yes but for 0, a probe with c100 at or
below c0 is not fitted (R51), M below 16 or reference class 0 turns tracking off and any other M goes down to a power of
two (R130), an overload code that names no mode is OFF (R153). The config adjusted mark is set exactly where one of these
values differs from its field, a probe's c100 is not above its c0, a reference range is empty, or the curve or the class
table is adjusted. That an M below 16 stands as given, that the mark is set for the calibration of a probe that is not
fitted, and that a neighbour is clamped before it is compared are the model's reading (notes/assumptions/18, 19). -/
def Obligations.ParametersAreClamped : Prop :=
  ∀ (own : Nat) (image : List Byte),
    let r := prepareImage own image
    let p := r.value
    let clamp := fun (low high raw : Nat) => max low (min high raw)
    let signed := fun (raw : Int) => max (-400) (min 800 raw)
    let beside := fun (raw : Nat) => if min 15 raw = own then 0 else min 15 raw
    let b := byteAt image
    let u := u16At image
    let w := u24At image
    let M := u 76
    p.lane = clamp 1 12 (b 5) ∧ p.neighbour = ⟨beside (b 6), beside (b 7)⟩ ∧ p.spacing = clamp 500 8000 (u 8) ∧
    p.gain = ⟨w 10, w 13, w 16, w 19⟩ ∧
    p.threshold = ⟨min 7 (b 22), min 7 (b 23), min 7 (b 24), min 7 (b 25)⟩ ∧
    p.maxPulse = clamp 256 16384 (u 26) ∧ p.skew = min 1024 (u 28) ∧ p.mismatchPct = clamp 5 50 (b 30) ∧
    (p.loopFitted = true ↔ b 31 ≠ 0) ∧ (p.probeFitted = true ↔ b 32 ≠ 0 ∧ u 33 < u 35) ∧
    p.c0 = u 33 ∧ p.c100 = u 35 ∧ p.filterShift = min 6 (b 37) ∧ p.jump = clamp 10 200 (b 38) ∧
    p.holdOwn = clamp 10 3600 (u 39) ∧ p.freshAge = clamp 10 600 (u 41) ∧ p.disagree = clamp 10 300 (u 43) ∧
    p.holdEff = clamp 10 7200 (u 45) ∧ p.tempDefault = signed (s16At image 47) ∧
    p.noticePeriod = clamp 5 60 (b 49) ∧ p.tempBase = signed (s16At image 50) ∧
    p.bandWidth = clamp 10 400 (u 52) ∧ p.maxSpacing = clamp 3000 15000 (u 54) ∧
    p.unsteadyPct = clamp 5 50 (b 56) ∧ p.edgeWait = clamp 50 2000 (u 57) ∧ p.matchWindow = min 655 (u 59) ∧
    p.speedPct = clamp 1 25 (b 61) ∧ p.yieldHold = clamp 100 5000 (u 62) ∧
    p.siteAxleLimit = clamp 1 65535 (u 64) ∧ p.siteGrossLimit = clamp 1 786420 (w 66) ∧
    p.tolerance = min 20 (b 69) ∧ p.screenSpeed = clamp 1000 70000 (w 70) ∧ p.refClass = min 63 (b 73) ∧
    p.nominal = clamp 2000 12000 (u 74) ∧ p.maxStep = clamp 1 64 (b 78) ∧
    p.refSpeed = (clamp 1000 70000 (w 79), clamp 1000 70000 (w 82)) ∧
    p.refGross = (min 786420 (w 85), min 786420 (w 88)) ∧ p.camera = min 60000 (u 91) ∧
    p.pulseWidth = clamp 1 100 (b 93) ∧ p.pulseGap = clamp 1 100 (b 94) ∧
    p.overloadMode = (match b 95 with
      | 1 => .follow
      | 2 => .latch
      | _ => .off) ∧
    p.statusPeriod = clamp 10 600 (u 96) ∧
    (p.tracking = true ↔ b 73 ≠ 0 ∧ 16 ≤ M) ∧ (M < 16 → p.samples = M) ∧ (256 ≤ M → p.samples = 256) ∧
    (∀ e, 4 ≤ e → e ≤ 7 → 2 ^ e ≤ M → M < 2 ^ (e + 1) → p.samples = 2 ^ e) ∧
    (r.adjusted = false ↔ p.lane = b 5 ∧ p.neighbour = ⟨b 6, b 7⟩ ∧ p.spacing = u 8 ∧
      p.threshold = ⟨b 22, b 23, b 24, b 25⟩ ∧ p.maxPulse = u 26 ∧ p.skew = u 28 ∧ p.mismatchPct = b 30 ∧
      u 33 < u 35 ∧ p.filterShift = b 37 ∧ p.jump = b 38 ∧ p.holdOwn = u 39 ∧ p.freshAge = u 41 ∧
      p.disagree = u 43 ∧ p.holdEff = u 45 ∧ p.tempDefault = s16At image 47 ∧ p.noticePeriod = b 49 ∧
      p.tempBase = s16At image 50 ∧ p.bandWidth = u 52 ∧ p.maxSpacing = u 54 ∧ p.unsteadyPct = b 56 ∧
      p.edgeWait = u 57 ∧ p.matchWindow = u 59 ∧ p.speedPct = b 61 ∧ p.yieldHold = u 62 ∧
      p.siteAxleLimit = u 64 ∧ p.siteGrossLimit = w 66 ∧ p.tolerance = b 69 ∧ p.screenSpeed = w 70 ∧
      p.refClass = b 73 ∧ p.nominal = u 74 ∧ p.samples = M ∧ p.maxStep = b 78 ∧ p.refSpeed = (w 79, w 82) ∧
      p.refGross = (w 85, w 88) ∧ p.refSpeed.1 ≤ p.refSpeed.2 ∧ p.refGross.1 ≤ p.refGross.2 ∧
      p.camera = u 91 ∧ p.pulseWidth = b 93 ∧ p.pulseGap = b 94 ∧ b 95 ≤ 2 ∧ p.statusPeriod = u 96 ∧
      (prepareCurve image).adjusted = false ∧ (prepareTable image).adjusted = false)

/-- The prepared tables. The curve holds the first points of the image, 8 at most, clamped, up to the first whose
temperature does not rise (R44). The class table holds, in order, the first 24 entries of the image at most but those
whose code is outside 1..63, each clamped, with its optional parts where their presence bits stand and its first 6
conditions at most (R114, R115). The curve is adjusted where a value or the count is clamped or a point is cut; the class
table where the count or a part of an entry is clamped, a track code names none, an entry is dropped, or an entry can be
met by no vehicle. -/
def Obligations.TablesArePrepared : Prop :=
  ∀ (own : Nat) (image : List Byte) (place : Nat → Nat),
    let p := (prepareImage own image).value
    let clamp := fun (low high raw : Nat) => max low (min high raw)
    let b := byteAt image
    let point := fun (i : Nat) =>
      ({ temp := max (-400) (min 800 (s16At image (99 + 4 * i)))
         factor := clamp 8192 32767 (u16At image (101 + 4 * i)) } : CurvePoint)
    let countAt := 99 + 4 * b 98
    place 0 = countAt + 1 → (∀ k, place (k + 1) = place k + 17 + 5 * b (place k + 16)) →
    let entry := fun (a : Nat) =>
      ({ code := b a, leastAxles := clamp 1 12 (b (a + 1)), greatestAxles := clamp 1 12 (b (a + 2))
         track := match b (a + 3) with
           | 1 => .singleTrack
           | 2 => .twoTrack
           | _ => .any
         gross := if (b (a + 4)).testBit 0
           then some (min 786420 (u24At image (a + 5)), min 786420 (u24At image (a + 8))) else none
         conditions := (List.range (min 6 (b (a + 16)))).map (fun i =>
           { index := clamp 1 11 (b (a + 17 + 5 * i)), least := u16At image (a + 18 + 5 * i)
             greatest := u16At image (a + 20 + 5 * i) })
         grossLimit := if (b (a + 4)).testBit 1 then some (clamp 1 786420 (u24At image (a + 11))) else none
         axleLimit := if (b (a + 4)).testBit 2 then some (clamp 1 65535 (u16At image (a + 14))) else none } :
        ClassEntry)
    let count := min 24 (b countAt)
    let stands := fun (a : Nat) =>
      let e := entry a
      1 ≤ b a ∧ b a ≤ 63 ∧ e.leastAxles = b (a + 1) ∧ e.greatestAxles = b (a + 2) ∧ b (a + 3) ≤ 2 ∧
      (∀ g, e.gross = some g → g = (u24At image (a + 5), u24At image (a + 8)) ∧ g.1 ≤ g.2) ∧
      (∀ g, e.grossLimit = some g → g = u24At image (a + 11)) ∧
      (∀ g, e.axleLimit = some g → g = u16At image (a + 14)) ∧ b (a + 16) ≤ 6 ∧
      (∀ i < b (a + 16), 1 ≤ b (a + 17 + 5 * i) ∧ b (a + 17 + 5 * i) ≤ 11) ∧
      e.leastAxles ≤ e.greatestAxles ∧ ∀ c ∈ e.conditions, c.least ≤ c.greatest ∧ c.index < e.greatestAxles
    (∃ n, n ≤ min 8 (b 98) ∧ p.curve = (List.range n).map point ∧
      (∀ i, i + 1 < n → (point i).temp < (point (i + 1)).temp) ∧
      (n < min 8 (b 98) → 0 < n ∧ (point n).temp ≤ (point (n - 1)).temp)) ∧
    p.classTable = (((List.range count).map place).filter (fun a => 1 ≤ b a && b a ≤ 63)).map entry ∧
    ((prepareCurve image).adjusted = false ↔ b 98 ≤ 8 ∧ p.curve.length = b 98 ∧
      ∀ i < b 98, (point i).temp = s16At image (99 + 4 * i) ∧ (point i).factor = u16At image (101 + 4 * i)) ∧
    ((prepareTable image).adjusted = false ↔ b countAt ≤ 24 ∧ ∀ k < b countAt, stands (place k))

/-- STATUS_DUE: in RUNNING and in HALTED a STATUS that shows the station state, the marks and the counters is queued and
the due time moves on by the status period, or by 60 s in HALTED; in MUTE the due time alone moves on (R169), by 60 s in
MUTE entered from HALTED, which is the model's reading (notes/assumptions/25). -/
def Obligations.StatusFallsDue : Prop :=
  ∀ (s : State) (due : LocalTime), s.control.statusDue = some due → 0 ≤ (s.localTime - due).toInt →
    let status := Body.status (s.control.station = .running) s.temp.status s.temp.suspect
      (s.drift.store = .fault) s.drift.defaulted s.output.overload s.control.adjusted s.counters
    let moved := fun (seconds : Nat) =>
      { s.control with statusDue := some (due + BitVec.ofNat 32 (16384 * seconds)) }
    (∀ seconds, (s.control.station = .running ∧ seconds = s.control.params.statusPeriod ∨
        s.control.station = .halted ∧ seconds = 60) →
      s.link.transmitQueue = [] → s.link.transmitter = .idle →
      exec .statusDue s = .next { s with
        control := moved seconds
        link := { s.link with transmitQueue := queued status, transmitter := .waitIdle } }) ∧
    (s.control.station = .mute .fromRunning →
      exec .statusDue s = .next { s with control := moved s.control.params.statusPeriod }) ∧
    (s.control.station = .mute .fromHalted → exec .statusDue s = .next { s with control := moved 60 })

/-- The frames at the head of the receive queue that no measuring block takes, and those that reach none. Commands of
station control that are no reset (R155, R166): CLEAR-LATCH releases the overload latch where the station measures in
LATCH mode and has no effect otherwise; STATUS-NOW queues a STATUS in RUNNING and has no effect otherwise; an unknown code
is counted; a command for another station is left unused. A VEHICLE, a STATUS, and a frame of source 0 that is no COMMAND
are dropped without a count (R181). In HALTED, and in MUTE entered from HALTED, a HALF_AXLE, TRANSFER, YIELD_CLOSED and
ANNOUNCE have no effect (R112), nor a TEMPERATURE (R68, whatever its value: notes/assumptions/23). Each leaves the receive
queue, and nothing else changes. -/
def Obligations.CommandsAndUnusedFrames : Prop :=
  ∀ (f : RxFrame) (s : State), headIs f s →
    let target := commandTarget f.payload
    let code := commandCode f.payload
    let mine := f.kind = .command ∧ (target = 0 ∨ target = s.control.number)
    let left := { s with link := withoutHead s.link }
    (mine → code = 1 → exec .clearLatch s = .next { s with
      link := withoutHead s.link
      output := { s.output with
        overload := if (s.control.station = .running ∨ s.control.station = .mute .fromRunning) ∧
            s.control.params.overloadMode = .latch then false else s.output.overload } }) ∧
    (mine → code = 3 → s.control.station = .running → s.link.transmitQueue = [] →
      s.link.transmitter = .idle → exec .statusNow s = .next { s with
      link := { withoutHead s.link with
        transmitQueue := queued (.status true s.temp.status s.temp.suspect (s.drift.store = .fault)
          s.drift.defaulted s.output.overload s.control.adjusted s.counters)
        transmitter := .waitIdle } }) ∧
    (mine → code = 3 → s.control.station ≠ .running → exec .statusNow s = .next left) ∧
    (mine → (code = 0 ∨ 4 ≤ code) → exec .commandCodeUnknown s = .next { s with
      link := withoutHead s.link, counters := counted 10 s.counters }) ∧
    (f.kind = .command → target ≠ 0 → target ≠ s.control.number → exec .commandNotAddressed s = .next left) ∧
    ((f.kind = .vehicle ∨ f.kind = .status ∨ f.source = 0 ∧ f.kind ≠ .command) →
      exec .vehicleStatusDropped s = .next left) ∧
    ((s.control.station = .halted ∨ s.control.station = .mute .fromHalted) → f.source ≠ 0 →
      (f.kind = .halfAxle → exec .halfAxle s = .next left) ∧
      (f.kind = .transfer → exec .transfer s = .next left) ∧
      (f.kind = .yieldClosed → exec .yieldClosed s = .next left) ∧
      (f.kind = .announce → exec .announce s = .next left) ∧
      (f.kind = .temperature → exec .temperature s = .next left))

/-! ## Channels -/

/-- SAMPLE in a measuring station at an even local time, with the four enabled channels IDLE and each net sample at or
below its threshold: every baseline moves toward its sample by the floored 256th part of the distance, and nothing
else changes (R5, R6). -/
def Obligations.QuietSampleMovesBaselines : Prop :=
  ∀ (s : State) (ll lr tl tr : BitVec 16) (loopHigh : Bool) (b1 b2 b3 b4 : Int),
    s.measuring = true → s.localTime.toNat % 2 = 0 → s.drift.store = .idle →
    s.control.params.loopFitted = false → (∀ c : Chan, s.control.params.gain.get c ≠ 0) →
    (∀ c : Chan, (s.channels.get c).detector = .idle) →
    s.channels.ll.baseline = some b1 → s.channels.lr.baseline = some b2 →
    s.channels.tl.baseline = some b3 → s.channels.tr.baseline = some b4 →
    ll.toInt - b1 / 256 ≤ theta s.control.params.threshold.ll →
    lr.toInt - b2 / 256 ≤ theta s.control.params.threshold.lr →
    tl.toInt - b3 / 256 ≤ theta s.control.params.threshold.tl →
    tr.toInt - b4 / 256 ≤ theta s.control.params.threshold.tr →
    exec (.sample ll lr tl tr loopHigh) s = .next { s with
      channels :=
        { ll := { s.channels.ll with baseline := some (b1 + (ll.toInt * 256 - b1) / 256) }
          lr := { s.channels.lr with baseline := some (b2 + (lr.toInt * 256 - b2) / 256) }
          tl := { s.channels.tl with baseline := some (b3 + (tl.toInt * 256 - b3) / 256) }
          tr := { s.channels.tr with baseline := some (b4 + (tr.toInt * 256 - b4) / 256) } } }

/-- SAMPLE. In a measuring station at an even local time each enabled channel takes its own sample and each disabled one
stays as it stands (R1, R2); the overlong pulses counter adds 1 for each channel that abandons a pulse (R12); a fitted
loop's run of equal levels grows to three or begins anew (R75); and every pulse that completes reaches the lead or trail
arrival of its half, if the half is live, and is discarded otherwise (R2, R14): within a half its trail before its lead,
between the halves in some order (R24, R30). A station that does not measure does nothing of this. The trail before the
lead, in the six cases in which the orders differ, the record of the port and the odd instant are the model's choice (notes/assumptions/3, 22, 32, 40). -/
def Obligations.SampleActsChannelwise : Prop :=
  ∀ (s : State) (codes : PerChannel (BitVec 16)) (loopHigh : Bool),
    let p := s.control.params
    let one := fun (c : Chan) =>
      if p.gain.get c = 0 then (s.channels.get c, Detection.nothing)
      else detect (theta (p.threshold.get c)) (rho (p.threshold.get c)) p.maxPulse
        (BitVec.ofNat 31 (s.localTime.toNat / 2)) (codes.get c).toInt (s.channels.get c)
    let abandoned := ([Chan.ll, .lr, .tl, .tr].filter (fun c => (one c).2 = .overlong)).length
    let pulse := fun (c : Chan) => match (one c).2 with
      | .pulse time area saturated => [({ chan := c, time := time, area := area, saturated := saturated } : Pulse)]
      | _ => []
    let left := if p.gain.ll ≠ 0 ∧ p.gain.tl ≠ 0 then pulse .tl ++ pulse .ll else []
    let right := if p.gain.lr ≠ 0 ∧ p.gain.tr ≠ 0 then pulse .tr ++ pulse .lr else []
    let arrive := fun (t : State) (x : Pulse) => match x.chan with
      | .ll => t.leadArrival .left x
      | .lr => t.leadArrival .right x
      | .tl => t.trailArrival .left x
      | .tr => t.trailArrival .right x
    let polls := 0 < (s.localTime - s.drift.phaseAt).toInt ∧
      (s.control.station = .starting ∧ s.control.held = false ∨ s.drift.store = .erasing ∨
        s.drift.store = .programming)
    let drift := if polls then { s.drift with port := [.readStatus] } else s.drift
    let l := s.assembler.loop
    let read := { s with
      channels := ⟨(one .ll).1, (one .lr).1, (one .tl).1, (one .tr).1⟩
      counters := if abandoned = 0 then s.counters
        else s.counters.set 2 (min 65535 (s.counters[2] + abandoned))
      drift := drift
      assembler := { s.assembler with loop :=
        if p.loopFitted = false then l
        else if l.count ≠ 0 ∧ l.level = loopHigh then { l with count := min 3 (l.count + 1) }
        else { l with level := loopHigh, count := 1, since := s.localTime } } }
    let run := exec (.sample codes.ll codes.lr codes.tl codes.tr loopHigh) s
    (s.localTime.toNat % 2 = 1 → run = .next s) ∧
    (s.localTime.toNat % 2 = 0 → s.measuring = false → run = .next { s with drift := drift }) ∧
    (s.localTime.toNat % 2 = 0 → s.measuring = true →
      ((left = [] ∨ right = []) → run = .next ((left ++ right).foldl arrive read)) ∧
      (left ≠ [] → right ≠ [] → ∃ order : List Pulse,
        order.Perm (left ++ right) ∧ left.Sublist order ∧ right.Sublist order ∧
        run = .next (order.foldl arrive { read with freeCount := s.freeCount + 1 })))

/-- One sample on a loaded channel, state by state of the detector (R5 to R10, R12, R13): `x` is the net sample of R4,
`n` its index and `maxPulse` the maximum pulse duration L. The first sample of an unloaded channel loads the baseline
and does no more (R4). The threshold and the release level follow the threshold code (R3), and a pulse's time is the
midpoint of its start and end samples (R10). The saturated mark of an area that reaches its limit exactly is the model's
reading (notes/assumptions/10). -/
def Obligations.DetectorFollowsTable : Prop :=
  (∀ (θ ρ : Int) (maxPulse : Nat) (n start : SampleIndex) (s b : Int) (c : Channel),
    (c.baseline = none →
      detect θ ρ maxPulse n s c = ({ c with baseline := some (s * 256) }, .nothing)) ∧
    (c.baseline = some b →
      let x := s - b / 256
      let grow := fun (y : Nat) (d : Channel) =>
        { d with area := min 16777215 (d.area + y),
                 saturated := d.saturated || decide (16777215 ≤ d.area + y) }
      let empty := { c with count := 0, area := 0, tailSum := 0, start := none, tentativeEnd := none,
                            saturated := false }
      (c.detector = .idle → detect θ ρ maxPulse n s c =
        if x ≤ θ then ({ c with baseline := some (b + (s * 256 - b) / 256) }, .nothing)
        else ({ c with detector := .qualify, start := some n, count := 1, area := x.toNat, saturated := false,
                       tailSum := 0, tentativeEnd := none }, .nothing)) ∧
      (c.detector = .qualify → detect θ ρ maxPulse n s c =
        if x ≤ θ then ({ empty with detector := .idle }, .nothing)
        else ({ grow x.toNat c with
                count := c.count + 1, detector := if c.count + 1 < 3 then .qualify else .pulse }, .nothing)) ∧
      (c.detector = .pulse → c.start = some start → detect θ ρ maxPulse n s c =
        if (n - start).toInt + 1 > maxPulse then ({ empty with detector := .held }, .overlong)
        else if x > ρ then (grow x.toNat c, .nothing)
        else ({ c with detector := .tail, count := 1, tentativeEnd := some (n - 1), tailSum := x.toNat },
          .nothing)) ∧
      (∀ finish, c.detector = .tail → c.start = some start → c.tentativeEnd = some finish →
        detect θ ρ maxPulse n s c =
        if (n - start).toInt + 1 > maxPulse then ({ empty with detector := .held }, .overlong)
        else if x > ρ then
          ({ grow x.toNat (grow c.tailSum c) with
              detector := .pulse, count := 0, tailSum := 0, tentativeEnd := none }, .nothing)
        else if c.count + 1 < 3 then
          ({ c with count := c.count + 1, tailSum := c.tailSum + x.toNat }, .nothing)
        else ({ empty with detector := .idle }, .pulse (pulseTime start finish) c.area c.saturated)) ∧
      (c.detector = .held → detect θ ρ maxPulse n s c =
        if x > ρ then ({ c with count := 0 }, .nothing)
        else if c.count + 1 < 3 then ({ c with count := c.count + 1 }, .nothing)
        else ({ c with detector := .idle, count := 0 }, .nothing)))) ∧
  ([0, 1, 2, 3, 4, 5, 6, 7].map theta = [512, 1024, 1536, 2048, 3072, 4096, 6144, 8192] ∧
    [0, 1, 2, 3, 4, 5, 6, 7].map rho = [256, 512, 768, 1024, 1536, 2048, 3072, 4096]) ∧
  ∀ (start : SampleIndex) (k : Nat), k < 2 ^ 30 →
    pulseTime start (start + BitVec.ofNat 31 k) = BitVec.ofNat 32 (2 * start.toNat + k)

/-! ## Axle formation -/

/-- LEAD_EXPIRY_BY_AGE and ORPHAN_EXPIRY_BY_AGE, at a sample instant of a measuring station: the oldest entry of a list
whose age, its local time less its pulse time less L + 2, exceeds Δt_max leaves the list and is counted; a lone lead
marks the open vehicle INCOMPLETE, an orphan marks none. While no entry is so old, nothing changes, which is the model's
reading of an event that does not hold (R19, R22, R23; notes/assumptions/4). -/
def Obligations.AgedEntryExpires : Prop :=
  ∀ (s : State) (h : Half), s.measuring = true → s.localTime.toNat % 2 = 0 →
    let aged := fun (x : Pulse) => (s.localTime - x.time).toInt - (s.control.params.maxPulse + 2 : Nat) >
      (s.control.params.spacing * 16384 / 1000 : Nat)
    (∀ x rest, (listsOf s h).leads = x :: rest → aged x →
      exec (.leadExpiryByAge h) s = .next { s with
        pairs := withLists s h { listsOf s h with leads := rest }
        counters := counted 0 s.counters
        assembler := { s.assembler with
          openVehicle := s.assembler.openVehicle.map
            (fun v => { v with flags := { v.flags with incomplete := true } }) } }) ∧
    (∀ x rest, (listsOf s h).orphans = x :: rest → aged x →
      exec (.orphanExpiryByAge h) s = .next { s with
        pairs := withLists s h { listsOf s h with orphans := rest }
        counters := counted 1 s.counters }) ∧
    ((∀ x ∈ (listsOf s h).leads, ¬ aged x) → exec (.leadExpiryByAge h) s = .next s) ∧
    ((∀ x ∈ (listsOf s h).orphans, ¬ aged x) → exec (.orphanExpiryByAge h) s = .next s)

/-- A trail arrives: the leads that precede it by more than Δt_max expire as lone leads, counted, and mark the open
vehicle INCOMPLETE; the oldest that remains is examined, and it alone. Within the window the two are one forward half-axle
of speed floor(D × 16384 / Δt), given to half combination; below Δt_min, or with no lead, the trail joins the orphans, a
full list first losing its oldest, which is counted (R18, R21, R23, R25). -/
def Obligations.TrailTakesOldestLead : Prop :=
  ∀ (s : State) (h : Half) (trail : Pulse),
    let D := s.control.params.spacing
    let least := (D * 16384 + 69999) / 70000
    let greatest := D * 16384 / 1000
    let lists := listsOf s h
    let interval := fun (x : Pulse) => (trail.time - x.time).toInt
    let kept := lists.leads.filter (fun x => decide (interval x ≤ greatest))
    let lone := lists.leads.length - kept.length
    let expired := if lone = 0 then s else { s with
      counters := s.counters.set 0 (min 65535 (s.counters[0] + lone))
      assembler := { s.assembler with
        openVehicle := s.assembler.openVehicle.map
          (fun v => { v with flags := { v.flags with incomplete := true } }) } }
    (∀ lead rest, kept = lead :: rest → (least : Int) ≤ interval lead →
      s.trailArrival h trail =
        ({ expired with pairs := withLists s h { lists with leads := rest } } : State).combineHalf
          { half := h, direction := .forward, leadTime := lead.time, trailTime := trail.time
            interval := (interval lead).toNat, speed := D * 16384 / (interval lead).toNat
            leadArea := lead.area, trailArea := trail.area
            saturated := lead.saturated || trail.saturated }) ∧
    ((kept = [] ∨ ∃ lead rest, kept = lead :: rest ∧ interval lead < least) →
      (lists.orphans.length < 4 → s.trailArrival h trail = { expired with
        pairs := withLists s h { lists with leads := kept, orphans := lists.orphans ++ [trail] } }) ∧
      (∀ oldest others, lists.orphans = oldest :: others → others.length = 3 →
        s.trailArrival h trail = { expired with
          counters := counted 1 expired.counters
          pairs := withLists s h { lists with leads := kept, orphans := others ++ [trail] } }))

/-- A lead arrives: the orphans that precede it by more than Δt_max expire and are counted. Of those that remain, the
oldest that precedes it by an interval in the window pairs with it as a reverse half-axle; failing that, the oldest that
follows it by such an interval pairs with it as a forward one; either is given to half combination. Failing both, the lead
joins the pending leads, a full list first losing its oldest as a lone lead, which is counted and marks the open vehicle
INCOMPLETE (R18, R19, R20, R23, R25). -/
def Obligations.LeadTakesOrphan : Prop :=
  ∀ (s : State) (h : Half) (lead : Pulse),
    let D := s.control.params.spacing
    let window := fun (i : Int) => ((D * 16384 + 69999) / 70000 : Nat) ≤ i ∧ i ≤ (D * 16384 / 1000 : Nat)
    let lists := listsOf s h
    let before := fun (o : Pulse) => (lead.time - o.time).toInt
    let behind := fun (o : Pulse) => (o.time - lead.time).toInt
    let kept := lists.orphans.filter (fun o => decide (before o ≤ (D * 16384 / 1000 : Nat)))
    let old := lists.orphans.length - kept.length
    let expired := if old = 0 then s else { s with
      counters := s.counters.set 1 (min 65535 (s.counters[1] + old)) }
    let pair := fun (direction : Direction) (o : Pulse) (interval : Int) (rest : List Pulse) =>
      ({ expired with pairs := withLists s h { lists with orphans := rest } } : State).combineHalf
        { half := h, direction := direction, leadTime := lead.time, trailTime := o.time
          interval := interval.toNat, speed := D * 16384 / interval.toNat
          leadArea := lead.area, trailArea := o.area, saturated := lead.saturated || o.saturated }
    (∀ inits o rest, kept = inits ++ o :: rest → (∀ x ∈ inits, ¬ window (before x)) → window (before o) →
      s.leadArrival h lead = pair .reverse o (before o) (inits ++ rest)) ∧
    (∀ inits o rest, kept = inits ++ o :: rest → (∀ x ∈ kept, ¬ window (before x)) →
      (∀ x ∈ inits, ¬ window (behind x)) → window (behind o) →
      s.leadArrival h lead = pair .forward o (behind o) (inits ++ rest)) ∧
    ((∀ x ∈ kept, ¬ window (before x) ∧ ¬ window (behind x)) →
      (lists.leads.length < 8 → s.leadArrival h lead = { expired with
        pairs := withLists s h { lists with orphans := kept, leads := lists.leads ++ [lead] } }) ∧
      (∀ oldest others, lists.leads = oldest :: others → others.length = 7 →
        s.leadArrival h lead = { expired with
          counters := counted 0 expired.counters
          assembler := { s.assembler with
            openVehicle := s.assembler.openVehicle.map
              (fun v => { v with flags := { v.flags with incomplete := true } }) }
          pairs := withLists s h { lists with orphans := kept, leads := others ++ [lead] } }))

/-- Every half-axle's speed lies within 1,000..70,000 mm/s, over the whole range of D and of the pairing window, and
at D = 3,000 the fastest has 69,917 and the slowest 1,000 (R17, R18). -/
def Obligations.HalfAxleSpeedInRange : Prop :=
  ∀ (p : Params) (h : Half) (lead trail : Pulse), 500 ≤ p.spacing → p.spacing ≤ 8000 →
    (((p.spacing * 16384 + 69999) / 70000 : Nat) ≤ (trail.time - lead.time).toInt →
      (trail.time - lead.time).toInt ≤ (p.spacing * 16384 / 1000 : Nat) →
      let v := (formHalfAxle p h .forward lead trail).speed
      1000 ≤ v ∧ v ≤ 70000 ∧
        (p.spacing = 3000 → (trail.time - lead.time).toInt = 703 → v = 69917) ∧
        (p.spacing = 3000 → (trail.time - lead.time).toInt = 49152 → v = 1000)) ∧
    (((p.spacing * 16384 + 69999) / 70000 : Nat) ≤ (lead.time - trail.time).toInt →
      (lead.time - trail.time).toInt ≤ (p.spacing * 16384 / 1000 : Nat) →
      let v := (formHalfAxle p h .reverse lead trail).speed
      1000 ≤ v ∧ v ≤ 70000)

/-- Half combination takes a new half-axle, by its four steps (R26): with the other half not live it is admitted at once as
a single-half axle, and else the half-axle that still waits on its own side is released first; then, where its mate waits on
the other side, of one direction and with lead times within W_h, the two are admitted as one axle, and in every other case it
enters its own slot and the other half-axle keeps its place. A single-half axle takes the time, speed and direction of its
half; the axle of two mates, whichever formed second, has the earlier lead time plus the floored half of their distance as its
time and the floored mean of their speeds as its speed (R27). HALF_RELEASE of a half whose release time has come admits it as
a single-half axle (R28). An axle is admitted after every half-axle that waits in a slot with an earlier lead time, each as a
single-half axle, the earlier first (R29); between two equal lead times the order is free, the model's choice
(notes/assumptions/2, 29). -/
def Obligations.MatesCombine : Prop :=
  let single := fun (x : HalfAxle) =>
    ({ direction := x.direction, time := x.leadTime, speed := x.speed
       left := if x.half = .left then some x else none
       right := if x.half = .right then some x else none } : Observation)
  let cleared := fun (h : Half) (s : State) =>
    ({ s with pairs := withLists s h { listsOf s h with slot := none } } : State)
  (∀ (s : State) (l r : HalfAxle), l.half = .left → r.half = .right → l.direction = r.direction →
    s.live .left = true → s.live .right = true →
    (l.leadTime - r.leadTime).toInt ≤ s.control.params.skew →
    -(s.control.params.skew : Int) ≤ (l.leadTime - r.leadTime).toInt →
    s.control.params.skew ≤ 1024 →
    let axle : Observation :=
      { direction := l.direction
        time := if 0 ≤ (r.leadTime - l.leadTime).toInt
          then l.leadTime + BitVec.ofInt 32 ((r.leadTime - l.leadTime).toInt / 2)
          else r.leadTime + BitVec.ofInt 32 ((l.leadTime - r.leadTime).toInt / 2)
        speed := (l.speed + r.speed) / 2, left := some l, right := some r }
    let free : State := { s with
      pairs := { left := { s.pairs.left with slot := none }, right := { s.pairs.right with slot := none } } }
    (s.pairs.left.slot = none → s.pairs.right.slot = some r → s.combineHalf l = free.admitAxle axle) ∧
    (s.pairs.right.slot = none → s.pairs.left.slot = some l → s.combineHalf r = free.admitAxle axle)) ∧
  (∀ (s : State) (x : HalfAxle),
    let h := x.half
    let mates := fun (y : HalfAxle) => y.direction = x.direction ∧
      (x.leadTime - y.leadTime).toInt.natAbs ≤ s.control.params.skew
    (s.live h.other = false → s.combineHalf x = s.admitOrdered (single x)) ∧
    (s.live h.other = true →
      (∀ q, (listsOf s h).slot = some q →
        s.combineHalf x = ((cleared h s).admitOrdered (single q)).combineHalf x ∧
        (listsOf ((cleared h s).admitOrdered (single q)) h).slot = none) ∧
      ((listsOf s h).slot = none → (∀ y, (listsOf s h.other).slot = some y → ¬ mates y) →
        s.combineHalf x = { s with pairs := withLists s h { listsOf s h with slot := some x } }))) ∧
  (∀ (s : State) (h : Half) (x : HalfAxle), s.measuring = true → s.localTime.toNat % 2 = 0 →
    (listsOf s h).slot = some x →
    let closing := match x.direction with
      | .forward => x.trailTime
      | .reverse => x.leadTime
    0 ≤ (s.localTime - (closing + BitVec.ofNat 32 (s.control.params.skew + (s.control.params.maxPulse + 2)))).toInt →
    exec (.halfRelease h) s = .next ((cleared h s).admitOrdered (single x))) ∧
  ∀ (s : State) (o : Observation),
    let early := fun (h : Half) (y : HalfAxle) => (listsOf s h).slot = some y ∧ (y.leadTime - o.time).toInt < 0
    let first := fun (y z : HalfAxle) (t : State) =>
      ((((cleared .right (cleared .left t)).admitAxle (single y)).admitAxle (single z)).admitAxle o)
    ((∀ h y, ¬ early h y) → s.admitOrdered o = s.admitAxle o) ∧
    (∀ h y, early h y → (∀ z, ¬ early h.other z) →
      s.admitOrdered o = ((cleared h s).admitAxle (single y)).admitAxle o) ∧
    ∀ l r, early .left l → early .right r →
      ((l.leadTime - r.leadTime).toInt < 0 → s.admitOrdered o = first l r s) ∧
      (0 < (l.leadTime - r.leadTime).toInt → s.admitOrdered o = first r l s) ∧
      (l.leadTime = r.leadTime → s.admitOrdered o = first l r { s with freeCount := s.freeCount + 1 } ∨
        s.admitOrdered o = first r l { s with freeCount := s.freeCount + 1 })

/-- HALF_RELEASE of a half-axle whose release time, its closing time plus W_h plus L + 2, has come at a sample instant,
with the other slot empty and no open vehicle: it is admitted as a single-half axle and opens a vehicle, which issues the
next number, latches the handover values and the band's correction, takes the flags of its source, direction and half, and
sets its gap due time (R28, R32, R71, R72, R81, R83). With no neighbour on its side, or in reverse, it is no edge axle;
with one, and forward, it joins the edge list and queues its HALF-AXLE notice (R90, R91, R92). -/
def Obligations.ReleasedHalfOpensVehicle : Prop :=
  ∀ (s : State) (h : Half) (x : HalfAxle), s.measuring = true → s.localTime.toNat % 2 = 0 →
    (listsOf s h).slot = some x → x.half = h → (listsOf s h.other).slot = none →
    let p := s.control.params
    let closing := match x.direction with
      | .forward => x.trailTime
      | .reverse => x.leadTime
    0 ≤ (s.localTime - (closing + BitVec.ofNat 32 (p.skew + (p.maxPulse + 2)))).toInt →
    s.assembler.openVehicle = none →
    let latched := s.assembler.handover
    let correction := s.drift.bands[latched.band].correction
    let half := halfLoad p latched.factor correction x
    let number := (s.assembler.lastNumber + 1) % 65536
    let axle : Axle :=
      { tag := 0, index := 1, time := x.leadTime, speed := x.speed, direction := x.direction
        left := match h with
          | .left => some half
          | .right => none
        right := match h with
          | .left => none
          | .right => some half }
    let opened := { s with
      pairs := withLists s h { listsOf s h with slot := none }
      counters := counted 3 s.counters
      assembler := { s.assembler with
        lastNumber := number
        openVehicle := some
          { number := number
            pairing := .unpaired, peer := 0, peerVehicle := 0, yieldClosed := false, received := 0
            forwarded := 0, holdDue := none
            direction := x.direction, latched := latched, correction := correction
            axles := [axle], nextTag := 1, lastTime := x.leadTime, lastSpeed := x.speed
            separation := none
            gapDue := x.leadTime + BitVec.ofNat 32 ((p.maxSpacing + p.spacing) * 16384 / x.speed)
            gapDueMark := false
            flags := { Flags.none with
              mismatch := half.mismatch, saturated := half.saturated
              wrongWay := x.direction = .reverse
              tempHeld := latched.source = .ownHeld || latched.source = .held
              tempDefault := latched.source = .default
              correctionDefault := s.drift.defaulted } } } }
    ((p.neighbour.get h = 0 ∨ x.direction = .reverse) → exec (.halfRelease h) s = .next opened) ∧
    (p.neighbour.get h ≠ 0 → x.direction = .forward → s.control.station = .running →
      s.boundary = { edges := [], remote := ⟨[], []⟩ } → s.link.transmitQueue = [] →
      s.link.transmitter = .idle → exec (.halfRelease h) s = .next { opened with
        boundary := { s.boundary with edges := [
          { side := h, vehicle := number, tag := 0, time := x.leadTime, speed := x.speed, load := half.load
            index := 1, saturated := half.saturated, mismatch := half.mismatch, joined := s.localTime }] }
        link := { s.link with
          transmitQueue := queued (.halfAxle h x.leadTime x.speed half.load 1 number half.saturated
            half.mismatch)
          transmitter := .waitIdle } })

/-! ## Loads and temperature -/

/-- The load chain of a half, stage by stage, with its rounding, its limits and its marks: three floored and limited
stages per strip, the mean of the strips half up, the mismatch test on the limited strips, and the saturated mark, which
no later stage clears (R36 to R41). The axle load is the sum of the half loads present, an absent half adding nothing, held
at 65,535 with the saturated mark; each of the axle's two marks is set when a present half carries it (R42). -/
def Obligations.HalfLoadFollowsChain : Prop :=
  ∀ (p : Params) (F C : Nat) (h : HalfAxle),
    let G_l := match h.half with
      | .left => p.gain.ll
      | .right => p.gain.lr
    let G_t := match h.half with
      | .left => p.gain.tl
      | .right => p.gain.tr
    let limit := 1048575
    let raw := fun (A G : Nat) => A * h.speed * G / 2 ^ 36
    let comp := fun (A G : Nat) => min limit (raw A G) * F / 16384
    let cal := fun (A G : Nat) => min limit (comp A G) * C / 4096
    let strip := fun (A G : Nat) => min limit (cal A G)
    let l := strip h.leadArea G_l
    let t := strip h.trailArea G_t
    let limited := fun (A G : Nat) => limit < raw A G ∨ limit < comp A G ∨ limit < cal A G
    (halfLoad p F C h).load = min 65534 ((l + t + 16) / 32) ∧
    ((halfLoad p F C h).mismatch = true ↔ ((l : Int) - t).natAbs * 100 > p.mismatchPct * max l t) ∧
    ((halfLoad p F C h).saturated = true ↔ h.saturated = true ∨ limited h.leadArea G_l ∨ limited h.trailArea G_t ∨
      65534 < (l + t + 16) / 32) ∧
    (∀ A G, limit < raw A G ↔ 2 ^ 56 ≤ A * h.speed * G) ∧
    ∀ a : Axle,
      let part := fun (o : Option HalfLoad) => match o with
        | some x => x.load
        | none => 0
      let present := fun (x : HalfLoad) => a.left = some x ∨ a.right = some x
      a.load = min 65535 (part a.left + part a.right) ∧
        (a.saturated = true ↔ (∃ x, present x ∧ x.saturated = true) ∨ 65535 < part a.left + part a.right) ∧
        (a.mismatch = true ↔ ∃ x, present x ∧ x.mismatch = true)

/-- The temperature factor by the cases of R45 on a prepared curve, whose temperatures rise; and it lies between the
smallest and the largest factor of the curve. -/
def Obligations.TemperatureFactorByCases : Prop :=
  ∀ (curve : List CurvePoint) (T : Int), curve.Pairwise (fun a b => a.temp < b.temp) →
    (curve = [] → tempFactor curve T = 16384) ∧
    (∀ a, curve = [a] → tempFactor curve T = a.factor) ∧
    (∀ a rest, curve = a :: rest → T ≤ a.temp → tempFactor curve T = a.factor) ∧
    (∀ inits z, curve = inits ++ [z] → z.temp ≤ T → tempFactor curve T = z.factor) ∧
    (∀ inits a b rest, curve = inits ++ a :: b :: rest → a.temp ≤ T → T < b.temp →
      (tempFactor curve T : Int) =
        a.factor + (((b.factor : Int) - a.factor) * (T - a.temp)).tdiv (b.temp - a.temp)) ∧
    (∀ low high, curve ≠ [] → (∀ a ∈ curve, low ≤ a.factor ∧ a.factor ≤ high) →
      low ≤ tempFactor curve T ∧ tempFactor curve T ≤ high)

/-- The peer table. A TEMPERATURE of a peer at the head of the receive queue of a measuring station: a value within
−400..800 becomes its entry at age 0, any other is counted as a discarded frame and leaves the table alone (R61). At a
second each present entry's age adds 1, and one past 3,600 is no longer present (R62). The median over the fresh entries,
those present with an age of at most A_fresh, is the entry at place floor((n − 1) / 2), from 0, of their values in
ascending order, equal values kept apart; none without a fresh entry (R62, R63). -/
def Obligations.PeerTableKept : Prop :=
  (∀ (s : State) (f : RxFrame) (j : Fin 15), s.measuring = true → headIs f s → f.kind = .temperature →
    f.source = j.val + 1 →
    let T := temperatureValue f.payload
    (-400 ≤ T → T ≤ 800 → exec .temperature s = .next { s with
      link := withoutHead s.link
      temp := { s.temp with peers := s.temp.peers.set j { present := true, value := T, age := 0 } } }) ∧
    ((T < -400 ∨ 800 < T) → exec .temperature s = .next { s with
      link := withoutHead s.link, counters := counted 10 s.counters })) ∧
  ∀ (p : Params) (u : TempUnit),
    let values := (u.peers.toList.filter (fun e => e.present && decide (e.age ≤ p.freshAge))).map PeerEntry.value
    u.agePeers = { u with peers := u.agePeers.peers } ∧
    (∀ j : Fin 15, u.agePeers.peers[j] = if u.peers[j].present = true
      then { u.peers[j] with age := u.peers[j].age + 1, present := decide (u.peers[j].age + 1 ≤ 3600) }
      else u.peers[j]) ∧
    (values = [] → TempUnit.median (u.freshValues p) = none) ∧
    (values ≠ [] → ∃ sorted : List Int, sorted.Perm values ∧ sorted.Pairwise (fun a b => a ≤ b) ∧
      TempUnit.median (u.freshValues p) = sorted[(values.length - 1) / 2]?)

/-- One probe reading by the own status: what the filter, the spike list, the hold age and the status become, and
whether the reading is counted as rejected (R51, R53 to R59). The reading of a code is none below 1,024, above 64,511, or
outside −400..800, and else the code's place between c0 and c100 in tenths, rounded half up (R52). -/
def Obligations.ProbePhaseByStatus : Prop :=
  ∀ (p : Params) (code : Nat) (u : TempUnit) (f : Int),
    let reading := probeReading p code
    let span : Int := (p.c100 : Int) - p.c0
    let tenths := (2000 * ((code : Int) - p.c0) + span) / (2 * span)
    let T_f := (f + 8) / 16
    let loaded := fun (T : Int) =>
      { u with filtered := some (T * 16), spikes := [], holdAge := 0, status := .valid }
    ((code < 1024 ∨ 64511 < code) → reading = none) ∧
    (1024 ≤ code → code ≤ 64511 → p.c0 < p.c100 →
      reading = if -400 ≤ tenths ∧ tenths ≤ 800 then some tenths else none) ∧
    (u.status = .absent → u.probePhase p code = (u, false)) ∧
    (u.status = .starting → reading = none → u.probePhase p code = (u, false)) ∧
    (∀ T, u.status = .starting → reading = some T → u.probePhase p code = (loaded T, false)) ∧
    ((u.status = .valid ∨ u.status = .hold ∨ u.status = .stale) → u.filtered = some f →
      let missed := fun (spikes : List Int) => match u.status with
        | .valid => { u with spikes := spikes, status := .hold, holdAge := 1, suspect := false }
        | .hold => { u with
            spikes := spikes, holdAge := u.holdAge + 1
            status := if p.holdOwn < u.holdAge + 1 then .stale else .hold }
        | _ => { u with spikes := spikes }
      (reading = none → u.probePhase p code = (missed [], false)) ∧
      (∀ T, reading = some T → (T - T_f).natAbs ≤ p.jump →
        u.probePhase p code = ({ u with
          filtered := some (f + (T * 16 - f).tdiv (2 ^ p.filterShift : Nat)), spikes := [], holdAge := 0
          status := .valid }, false)) ∧
      (∀ T, reading = some T → p.jump < (T - T_f).natAbs → u.spikes.length < 2 →
        u.probePhase p code = (missed (u.spikes ++ [T]), true)) ∧
      (∀ T A B rest, reading = some T → p.jump < (T - T_f).natAbs →
        (u.spikes = [A, B] ∧ rest = [A, B] ∨ ∃ C, u.spikes = [C, A, B] ∧ rest = [A, B]) →
        u.probePhase p code =
          if max A (max B T) - min A (min B T) ≤ p.jump then ({ loaded T with suspect := false }, true)
          else (missed (rest ++ [T]), true)))

/-- The choice of the effective temperature and its source by the cases of R64, after the SUSPECT decision of R60, with
the held value and held age of R65; `m` is the peer median of the second. -/
def Obligations.EffectiveTemperatureByCases : Prop :=
  ∀ (p : Params) (u : TempUnit),
    let fresh := (u.freshValues p).length
    let T_f := (u.filtered.getD 0 + 8) / 16
    let away := fun (m : Int) => p.disagree < (T_f - m).natAbs
    let got := fun (suspect : Bool) (T : Int) (source : Source) =>
      ({ u with suspect := suspect, held := some T, heldAge := 0 }, T, source)
    let fell := { u with suspect := false, heldAge := min (p.holdEff + 1) (u.heldAge + 1) }
    (u.status = .valid → fresh < 2 → u.choose p = got false T_f .own) ∧
    (∀ m, u.status = .valid → 2 ≤ fresh → TempUnit.median (u.freshValues p) = some m → ¬ away m →
      u.choose p = got false T_f .own) ∧
    (∀ m, u.status = .valid → 2 ≤ fresh → TempUnit.median (u.freshValues p) = some m → away m →
      u.choose p = got true m .peer) ∧
    (∀ m, u.status ≠ .valid → 1 ≤ fresh → TempUnit.median (u.freshValues p) = some m →
      u.choose p = got false m .peer) ∧
    (u.status = .hold → fresh = 0 → u.choose p = got false T_f .ownHeld) ∧
    (∀ T, u.status ≠ .valid → u.status ≠ .hold → fresh = 0 → u.held = some T → u.heldAge + 1 ≤ p.holdEff →
      u.choose p = (fell, T, .held)) ∧
    (u.status ≠ .valid → u.status ≠ .hold → fresh = 0 → (u.held = none ∨ p.holdEff < u.heldAge + 1) →
      u.choose p = (fell, p.tempDefault, .default))

/-- TEMPERATURE_SECOND, due, in a station that measures: the probe phase, the ageing and the choice, in that order, each as
stated above; then, in RUNNING with a VALID own probe that is not SUSPECT, a TEMPERATURE of the own value is queued if none
has been since reset or the last is P_n seconds old; the choice is handed over with its factor and band, a rejected reading
is counted, and the next second falls 16,384 half-ticks later (R47, R50, R66, R67). So, with an accepted reading, no peer
present and no notice due, the own value is handed over (R54, R64, R65). The count of seconds since the last notice is the
model's own (notes/assumptions/30). The band handed over is the quotient of R46, rounded toward minus infinity and held to
0..7: band b runs from T_base + b W_b up to T_base + (b + 1) W_b, band 0 takes every temperature below its upper edge, and
band 7 every one from its lower edge up. -/
def Obligations.TemperatureSecondRuns : Prop :=
  (∀ (base T : Int) (width : Nat) (b : Fin 8), 1 ≤ width →
    (tempBand base width T : Int) = max 0 (min 7 ((T - base) / width)) ∧
    (tempBand base width T = b ↔
      (b = 0 ∨ base + b * width ≤ T) ∧ (b = 7 ∨ T < base + (b + 1) * width))) ∧
  ∀ (s : State) (code : BitVec 16) (due : LocalTime),
    s.measuring = true → s.temp.secondDue = some due → 0 ≤ (s.localTime - due).toInt →
    let p := s.control.params
    let handover := fun (T : Int) (source : Source) =>
      ({ temp := T, source := source, factor := tempFactor p.curve T, band := tempBand p.tempBase p.bandWidth T } :
        Handover)
    let r := s.temp.probePhase p code.toNat
    let c := r.1.agePeers.choose p
    let u := c.1
    let noticed := s.control.station = .running ∧ u.status = .valid ∧ u.suspect = false ∧
      ∀ n, u.sinceNotice = some n → p.noticePeriod ≤ n + 1
    (s.link.transmitQueue = [] → s.link.transmitter = .idle →
      exec (.temperatureSecond code) s = .next { s with
        temp := { u with
          sinceNotice := if noticed then some 0 else u.sinceNotice.map (fun n => n + 1)
          secondDue := some (due + 16384) }
        counters := if r.2 then counted 9 s.counters else s.counters
        link := if noticed then { s.link with
            transmitQueue := queued (.temperature ((u.filtered.getD 0 + 8) / 16)), transmitter := .waitIdle }
          else s.link
        assembler := { s.assembler with handover := handover c.2.1 c.2.2 } }) ∧
    (∀ (f T : Int) (n : Nat), s.control.station = .running →
      (s.temp.status = .valid ∨ s.temp.status = .hold ∨ s.temp.status = .stale) →
      s.temp.filtered = some f → probeReading p code.toNat = some T → (T - (f + 8) / 16).natAbs ≤ p.jump →
      (∀ j : Fin 15, s.temp.peers[j].present = false) →
      s.temp.sinceNotice = some n → n + 1 < p.noticePeriod →
      let f' := f + (T * 16 - f).tdiv (2 ^ p.filterShift : Nat)
      let T' := (f' + 8) / 16
      exec (.temperatureSecond code) s = .next { s with
        temp := { s.temp with
          status := .valid, suspect := false, filtered := some f', spikes := [], holdAge := 0
          held := some T', heldAge := 0, sinceNotice := some (n + 1), secondDue := some (due + 16384) }
        assembler := { s.assembler with handover := handover T' .own } })

/-! ## Vehicles -/

/-- LOOP_TRANSITION, at a sample instant at which three successive samples agree on a level other than the qualified state:
the state takes that level; a change from OCCUPIED to CLEAR gives the open vehicle its separation mark, at the time of
the first of the three samples, if it carries none and its latest axle precedes that time; any other change does
nothing more, the first setting included (R75, R76). That the command changes nothing while the level is the qualified
one is the model's reading (notes/assumptions/4). -/
def Obligations.LoopTransitionSeparates : Prop :=
  ∀ (s : State), s.measuring = true → s.localTime.toNat % 2 = 0 → s.control.params.loopFitted = true →
    let l := s.assembler.loop
    l.count = 3 →
    let settled := { l with qualified := some l.level }
    (∀ v, l.qualified = some true → l.level = false → s.assembler.openVehicle = some v →
      exec .loopTransition s = .next { s with assembler := { s.assembler with
        loop := settled
        openVehicle := some (if v.separation = none ∧ (v.lastTime - l.since).toInt < 0
          then { v with separation := some l.since } else v) } }) ∧
    ((l.qualified = none ∨ l.qualified = some false ∧ l.level = true) →
      exec .loopTransition s = .next { s with assembler := { s.assembler with loop := settled } }) ∧
    (l.qualified = some l.level → exec .loopTransition s = .next s)

/-- GAP_TIMER, at a sample instant at or past the gap due time with no earlier half waiting: the gap due mark is set, and an
OWNER vehicle that has neither the yield-closed mark nor PARTNER-LOST gets its hold due time, Y from now, Y floored to
half-ticks (R82, R108). An open vehicle with an edge axle enters the closing slot, here an empty one. Without edge axle an
open UNPAIRED vehicle, and an OWNER one whose close is met, pass through the completion operation, an OWNER one whose
close is not met enters the closing slot, and a YIELDED one ends as yielded: its YIELD-CLOSED is queued, and it is
counted. A closing vehicle with an edge axle stays, and so does an OWNER one whose close is not met; without edge axle a
closing OWNER whose close is met completes, and a closing YIELDED vehicle ends as yielded (R73, R104, R109). With triggers,
tracking and the overload line off, the record of an open UNPAIRED vehicle is queued and counted, and nothing else changes
(R84 to R86). -/
def Obligations.GapTimerEndsVehicle : Prop :=
  ∀ (s : State) (v : Vehicle), s.control.station = .running → s.localTime.toNat % 2 = 0 →
    v.gapDueMark = false → 0 ≤ (s.localTime - v.gapDue).toInt →
    (∀ h, s.pairs.left.slot = some h ∨ s.pairs.right.slot = some h → 0 ≤ (h.leadTime - v.gapDue).toInt) →
    let p := s.control.params
    let edge := ∃ e ∈ s.boundary.edges, e.vehicle = v.number
    let sm := summarize p v.axles
    let flags := { v.flags with
      unsteady := v.flags.unsteady || sm.unsteady, singleTrack := v.flags.singleTrack || sm.singleTrack }
    let entry := matchedEntry p.classTable v.axles.length sm
    let waits := v.yieldClosed = false ∧ v.flags.partnerLost = false
    let marked : Vehicle := { v with
      gapDueMark := true
      holdDue := if v.pairing = .owner ∧ waits then
        some (s.localTime + BitVec.ofNat 32 (p.yieldHold * 16384 / 1000)) else v.holdDue }
    let openIs := fun (o : Option Vehicle) => { s with assembler := { s.assembler with openVehicle := o } }
    let closingIs := fun (o : Option Vehicle) => { s with assembler := { s.assembler with closingVehicle := o } }
    let yields := fun (t : State) =>
      let t' := t.produce (.yieldClosed v.peer v.peerVehicle v.forwarded)
      { t' with counters := counted 5 t'.counters }
    (s.assembler.openVehicle = some v →
      (s.assembler.closingVehicle = none → (edge ∨ v.pairing = .owner ∧ waits) →
        exec (.gapTimer .openSlot) s = .next { s with
          assembler := { s.assembler with openVehicle := none, closingVehicle := some marked } }) ∧
      (¬ edge → (v.pairing = .unpaired ∨ v.pairing = .owner ∧ ¬ waits) →
        exec (.gapTimer .openSlot) s = .next ((openIs none).complete marked)) ∧
      (¬ edge → v.pairing = .yielded → exec (.gapTimer .openSlot) s = .next (yields (openIs none))) ∧
      (¬ edge → v.pairing = .unpaired → p.camera = 0 → p.tracking = false → p.overloadMode = .off →
        s.link.transmitQueue = [] → s.link.transmitter = .idle →
        exec (.gapTimer .openSlot) s = .next { openIs none with
          counters := counted 4 s.counters
          output := { s.output with overload := false }
          link := { s.link with
            transmitQueue := queued (.vehicle
              (v.record p flags (classCode entry) (screen p entry flags v.axles sm) sm))
            transmitter := .waitIdle } })) ∧
    (s.assembler.closingVehicle = some v →
      ((edge ∨ v.pairing = .owner ∧ waits) →
        exec (.gapTimer .closingSlot) s = .next (closingIs (some marked))) ∧
      (¬ edge → v.pairing = .owner → ¬ waits →
        exec (.gapTimer .closingSlot) s = .next ((closingIs none).complete marked)) ∧
      (¬ edge → v.pairing = .yielded → exec (.gapTimer .closingSlot) s = .next (yields (closingIs none))))

/-- An admitted axle, of two halves or of one, at or after t_last that meets the conditions of joining is appended to the
open vehicle, UNPAIRED, OWNER or YIELDED, and becomes its latest axle; it is then forwarded by a YIELDED vehicle, or tested as
an edge axle (R32, R74, R77, R81, R83, R90, R103). When that vehicle holds 12 axles already it takes TRUNCATED and ends, and
the axle opens a vehicle of the next number that carries CONTINUATION (R79). An axle that fails the joining test ends the
vehicle and opens the next one (R72, R77). A vehicle that ends so is held with an edge axle, as an OWNER one whose close is
not met, or as a YIELDED one without its gap due mark: it enters the closing slot. Otherwise a YIELDED one ends as yielded,
and any other passes through the completion operation; the new vehicle latches the correction as that left it (R73, R104). A
single-half axle that fills a transferred one is shut out here, and LateAndMergedAxlesPlaced states it (R106). -/
def Obligations.AxleJoinsOpenVehicle : Prop :=
  ∀ (s : State) (v : Vehicle) (o : Observation), s.assembler.openVehicle = some v → Sided o →
    StandsAlone s.control.params o v → 0 ≤ (o.time - v.lastTime).toInt →
    let p := s.control.params
    let fits := o.direction = v.direction ∧
      ((v.lastSpeed + o.speed : Nat) : Int) * (o.time - v.lastTime).toInt / 32768 ≤ p.maxSpacing ∧
      (p.loopFitted = true → ∀ t, v.separation = some t → (o.time - t).toInt < 0)
    let due := o.time + BitVec.ofNat 32 ((p.maxSpacing + p.spacing) * 16384 / o.speed)
    let axle := loadedWith p v.latched.factor v.correction v.nextTag (v.axles.length + 1) o
    let joined : Vehicle := { v with
      axles := v.axles ++ [axle], nextTag := v.nextTag + 1, lastTime := o.time, lastSpeed := o.speed, gapDue := due
      flags := { v.flags with
        mismatch := v.flags.mismatch || axle.mismatch, saturated := v.flags.saturated || axle.saturated } }
    let leaves := fun (w : Option Vehicle) => { s with
      counters := counted 3 s.counters, assembler := { s.assembler with openVehicle := w } }
    let gone := leaves none
    let opens := fun (t : State) (continuation : Bool) =>
      let latched := s.assembler.handover
      let correction := t.drift.bands[latched.band].correction
      let first := loadedWith p latched.factor correction 0 1 o
      let w : Vehicle :=
        { number := (s.assembler.lastNumber + 1) % 65536
          pairing := .unpaired, peer := 0, peerVehicle := 0, yieldClosed := false, received := 0
          forwarded := 0, holdDue := none
          direction := o.direction, latched := latched, correction := correction
          axles := [first], nextTag := 1, lastTime := o.time, lastSpeed := o.speed
          separation := none, gapDue := due, gapDueMark := false
          flags := { Flags.none with
            mismatch := first.mismatch, saturated := first.saturated
            wrongWay := o.direction = .reverse
            tempHeld := latched.source = .ownHeld || latched.source = .held
            tempDefault := latched.source = .default
            correctionDefault := s.drift.defaulted, continuation := continuation } }
      AfterPlacing w first { t with assembler := { t.assembler with
        lastNumber := (s.assembler.lastNumber + 1) % 65536, openVehicle := some w } } (s.admitAxle o)
    let held := (∃ e ∈ s.boundary.edges, e.vehicle = v.number) ∨
      v.pairing = .owner ∧ ¬ (v.gapDueMark = true ∧ (v.yieldClosed = true ∨ v.flags.partnerLost = true)) ∨
      v.pairing = .yielded ∧ v.gapDueMark = false
    let ends := fun (w : Vehicle) (continuation : Bool) =>
      (held → s.assembler.closingVehicle = none →
        opens { gone with assembler := { gone.assembler with closingVehicle := some w } } continuation) ∧
      (held → opens (gone.enterClosing w) continuation) ∧
      (¬ held → v.pairing ≠ .yielded → opens (gone.complete w) continuation) ∧
      (¬ held → v.pairing = .yielded →
        let t := gone.produce (.yieldClosed v.peer v.peerVehicle v.forwarded)
        opens { t with counters := counted 5 t.counters } continuation)
    (fits → v.axles.length < 12 → AfterPlacing joined axle (leaves (some joined)) (s.admitAxle o)) ∧
    (fits → v.axles.length = 12 → ends { v with flags := { v.flags with truncated := true } } true) ∧
    (¬ fits → ends v false)

/-- An admitted axle, of two halves or of one, that precedes t_last is late. In the direction of the open vehicle, UNPAIRED,
OWNER or YIELDED, at or after its first axle and with room, it goes after every axle at or before its own time and before every
later one, and t_last, v_last and the gap due time stay; it is then forwarded by a YIELDED vehicle, or tested as an edge axle
(R90, R103). Failing a condition it is discarded, and the vehicle takes INCOMPLETE for the first two, TRUNCATED for the third
(R78), both when both fail, which is the model's reading (notes/assumptions/31). A single-half axle admitted to an open OWNER
vehicle without PARTNER-LOST, of its direction, that holds transferred axles within K which lack just that half, fills the
nearest of them in time, of two at equal distance the earlier: the axle keeps its time and speed, and the vehicle takes
STRADDLE and the marks (R106). Either axle counts as admitted (R32). -/
def Obligations.LateAndMergedAxlesPlaced : Prop :=
  (∀ (s : State) (v : Vehicle) (o : Observation), s.assembler.openVehicle = some v → Sided o →
    StandsAlone s.control.params o v → (o.time - v.lastTime).toInt < 0 →
    let p := s.control.params
    let fits := o.direction = v.direction ∧ ∀ first ∈ v.axles.head?, 0 ≤ (o.time - first.time).toInt
    let placed := fun (w : Vehicle) => { s with
      counters := counted 3 s.counters, assembler := { s.assembler with openVehicle := some w } }
    let flagged := fun (incomplete truncated : Bool) => placed { v with flags := { v.flags with
      incomplete := v.flags.incomplete || incomplete, truncated := v.flags.truncated || truncated } }
    (∀ before after, fits → v.axles.length < 12 → v.axles = before ++ after →
      (∀ a ∈ before, 0 ≤ (o.time - a.time).toInt) → (∀ a ∈ after.head?, (o.time - a.time).toInt < 0) →
      let axle := loadedWith p v.latched.factor v.correction v.nextTag (before.length + 1) o
      let w : Vehicle := { v with
        axles := before ++ axle :: after, nextTag := v.nextTag + 1
        flags := { v.flags with
          mismatch := v.flags.mismatch || axle.mismatch
          saturated := v.flags.saturated || axle.saturated } }
      AfterPlacing w axle (placed w) (s.admitAxle o)) ∧
    (¬ fits → v.axles.length < 12 → s.admitAxle o = flagged true false) ∧
    (fits → v.axles.length = 12 → s.admitAxle o = flagged false true) ∧
    (¬ fits → v.axles.length = 12 → s.admitAxle o = flagged true true)) ∧
  ∀ (s : State) (v : Vehicle) (x : HalfAxle) (a : Axle) (before after : List Axle) (l : HalfLoad),
    s.assembler.openVehicle = some v → v.pairing = .owner → v.flags.partnerLost = false →
    x.direction = v.direction → v.axles = before ++ a :: after → (∀ b ∈ before ++ after, b.tag ≠ a.tag) →
    let p := s.control.params
    let distance := fun (b : Axle) => (b.time - x.leadTime).toInt.natAbs
    let candidate := fun (b : Axle) (m : HalfLoad) =>
      b.loneHalf = some (x.half.other, m) ∧ m.remote = true ∧ distance b ≤ p.matchWindow
    candidate a l → (∀ b ∈ before, ∀ m, candidate b m → distance a < distance b) →
    (∀ b ∈ after, ∀ m, candidate b m → distance a ≤ distance b) →
    let filled := a.fill x.half (halfLoad p v.latched.factor v.correction x)
    s.admitAxle x.alone = { s with
      counters := counted 3 s.counters
      assembler := { s.assembler with openVehicle := some { v with
        axles := before ++ filled :: after
        flags := { v.flags with
          straddle := true, mismatch := v.flags.mismatch || filled.mismatch
          saturated := v.flags.saturated || filled.saturated } } } }

/-- The completion operation, whole and in order (R84, R85, R126): the summary, with UNSTEADY and SINGLE-TRACK, classing and
screening; then the trigger stage, the overload stage, the drift stage, the count of the record and the record itself, with
the flags as the trigger stage left them. The record holds one spacing fewer than its axles, each at most S_max; its gross
is the sum of its axle loads, its wheelbase the sum of its spacings, its mean speed the floored mean; each axle's entry
holds the axle's load and its pattern: each half present, reverse, the axle's saturated and mismatch marks, and straddled
where it holds a remote half (R84, R86, R87). -/
def Obligations.CompletionFormsRecord : Prop :=
  ∀ (s : State) (v : Vehicle), 1 ≤ v.axles.length → v.axles.length ≤ 12 →
    let p := s.control.params
    let sm := summarize p v.axles
    let flags := { v.flags with
      unsteady := v.flags.unsteady || sm.unsteady, singleTrack := v.flags.singleTrack || sm.singleTrack }
    let entry := matchedEntry p.classTable v.axles.length sm
    let verdict := screen p entry flags v.axles sm
    let triggered := s.scheduleTrigger v flags verdict
    let drifted := (triggered.2.takeVerdict verdict).driftStage v triggered.1 (classCode entry) sm
    let r := v.record p triggered.1 (classCode entry) verdict sm
    s.complete v = ({ drifted with counters := counted 4 drifted.counters } : State).produce (.vehicle r) ∧
    (∀ first last, v.axles.head? = some first → v.axles.getLast? = some last →
      (sm.unsteady = true ↔ ((first.speed : Int) - last.speed).natAbs * 100 >
        p.unsteadyPct * max first.speed last.speed)) ∧
    (sm.singleTrack = true ↔ ∀ a ∈ v.axles,
      (∃ l, a.left = some l ∧ a.right = none ∧ l.remote = false) ∨
        ∃ l, a.right = some l ∧ a.left = none ∧ l.remote = false) ∧
    r.lane = p.lane ∧ r.number = v.number ∧ r.firstTime = (v.axles.head?.map Axle.time).getD 0 ∧
      r.classCode = classCode entry ∧ r.verdict = verdict ∧ r.flags = triggered.1 ∧ r.temp = v.latched.temp ∧
      r.source = v.latched.source ∧ r.band = v.latched.band ∧ r.correction = v.correction ∧
      r.axles = v.axles.map Axle.entry ∧
    (∀ a : Axle, a.entry.load = a.load ∧ a.entry.saturated = a.saturated ∧ a.entry.mismatch = a.mismatch ∧
      (a.entry.left = true ↔ a.left ≠ none) ∧ (a.entry.right = true ↔ a.right ≠ none) ∧
      (a.entry.reverse = true ↔ a.direction = .reverse) ∧
      (a.entry.straddled = true ↔ ∃ x, (a.left = some x ∨ a.right = some x) ∧ x.remote = true)) ∧
    r.spacings.length + 1 = r.axles.length ∧ (∀ x ∈ r.spacings, x ≤ p.maxSpacing) ∧
      r.gross = (r.axles.map RecordAxle.load).sum ∧ r.gross ≤ 786420 ∧ r.wheelbase = r.spacings.sum ∧
      r.meanSpeed = (v.axles.map Axle.speed).sum / v.axles.length ∧
      ∀ (i : Nat) (a b : Axle), v.axles[i]? = some a → v.axles[i + 1]? = some b →
        0 ≤ (b.time - a.time).toInt → r.spacings[i]? = some (min p.maxSpacing
          (((a.speed + b.speed : Nat) : Int) * (b.time - a.time).toInt / 32768).toNat)

/-- The verdict of R122 to R125: a vehicle with a barring flag or below V_scr is NOT-SCREENED; any other is tested axle by
axle and as a whole against its entry's limits, or the site's, with the tolerance, and the two tests give the
verdict, which the record carries. -/
def Obligations.VerdictFollowsTests : Prop :=
  ∀ (p : Params) (entry : Option ClassEntry) (f : Flags) (axles : List Axle) (sm : Summary),
    let barred := f.incomplete = true ∨ f.mismatch = true ∨ f.saturated = true ∨ f.truncated = true ∨
      f.continuation = true ∨ f.wrongWay = true ∨ f.tempDefault = true ∨ f.partnerLost = true ∨
      f.edgeUnmatched = true ∨ sm.meanSpeed < p.screenSpeed
    let axleLimit := match entry with
      | some e => e.axleLimit.getD p.siteAxleLimit
      | none => p.siteAxleLimit
    let grossLimit := match entry with
      | some e => e.grossLimit.getD p.siteGrossLimit
      | none => p.siteGrossLimit
    let axleOver := ∃ a ∈ axles, a.load * 100 > axleLimit * (100 + p.tolerance)
    let grossOver := sm.gross * 100 > grossLimit * (100 + p.tolerance)
    (barred → screen p entry f axles sm = .notScreened) ∧
    (¬ barred → ¬ axleOver → ¬ grossOver → screen p entry f axles sm = .clear) ∧
    (¬ barred → axleOver → ¬ grossOver → screen p entry f axles sm = .axleOver) ∧
    (¬ barred → ¬ axleOver → grossOver → screen p entry f axles sm = .grossOver) ∧
    (¬ barred → axleOver → grossOver → screen p entry f axles sm = .bothOver) ∧
    ∀ (v : Vehicle) (cls : Nat),
      (v.record p f cls (screen p entry f axles sm) sm).verdict = screen p entry f axles sm

/-- Classing: the first entry of the table whose axle count, track, gross and spacing conditions all hold gives the class
code; with none the vehicle is class 0. A spacing condition holds when the vehicle has that spacing and it lies in
the range (R118 to R120). -/
def Obligations.FirstMatchingEntryClasses : Prop :=
  ∀ (table : List ClassEntry) (n : Nat) (sm : Summary), sm.spacings.length + 1 = n →
    (∀ e ∈ table, ∀ c ∈ e.conditions, 1 ≤ c.index) →
    let describes := fun (e : ClassEntry) =>
      e.leastAxles ≤ n ∧ n ≤ e.greatestAxles ∧
      (e.track = .any ∨ e.track = .singleTrack ∧ sm.singleTrack = true ∨
        e.track = .twoTrack ∧ sm.singleTrack = false) ∧
      (∀ least greatest, e.gross = some (least, greatest) → least ≤ sm.gross ∧ sm.gross ≤ greatest) ∧
      ∀ c ∈ e.conditions, c.index < n ∧
        ∀ x, sm.spacings[c.index - 1]? = some x → c.least ≤ x ∧ x ≤ c.greatest
    ((∀ e ∈ table, ¬ describes e) → classCode (matchedEntry table n sm) = 0) ∧
    (∀ inits e rest, table = inits ++ e :: rest → (∀ d ∈ inits, ¬ describes d) → describes e →
      matchedEntry table n sm = some e ∧ classCode (matchedEntry table n sm) = e.code)

/-! ## Straddles -/

/-- An edge axle is a single-half axle of direction FORWARD whose half faces a configured neighbour, in an UNPAIRED vehicle
or in an OWNER vehicle whose peer that neighbour is, without PARTNER-LOST (R90). On admission it joins the tail of the edge
list and queues its notice, which carries its index, half load, marks, speed and time (R91, R92); a list that holds 4
entries first resolves its oldest as unmatched and tests the close (R91, R100). The remote list of its side is then searched,
and of the notices that match by R97 the nearest in time, the earlier accepted of two, leaves its list and makes the match
(R98); with none the axle waits. -/
def Obligations.EdgeAxleAdmitted : Prop :=
  ∀ (s : State) (v : Vehicle) (a : Axle) (h : Half) (l : HalfLoad),
    let p := s.control.params
    let peer := match h with
      | .left => p.neighbour.left
      | .right => p.neighbour.right
    let remote := match h with
      | .left => s.boundary.remote.left
      | .right => s.boundary.remote.right
    let e : EdgeEntry :=
      { side := h, vehicle := v.number, tag := a.tag, time := a.time, speed := a.speed, load := l.load
        index := a.index, saturated := l.saturated, mismatch := l.mismatch, joined := s.localTime }
    let joined := { s with
      boundary := { s.boundary with edges := s.boundary.edges ++ [e] }
      link := { s.link with
        transmitQueue := queued (.halfAxle h a.time a.speed l.load a.index v.number l.saturated l.mismatch)
        transmitter := .waitIdle } }
    let distance := fun (n : RemoteNotice) => (a.time - n.time).toInt.natAbs
    let fits := fun (n : RemoteNotice) => distance n ≤ p.matchWindow ∧
      ((a.speed : Int) - n.speed).natAbs * 100 ≤ p.speedPct * max a.speed n.speed ∧
      (v.pairing = .unpaired ∨ v.peer = n.source ∧ v.peerVehicle = n.vehicle)
    (v.edgeHalf p a = some (h, l) ↔
      (match h with
        | .left => a.left = some l ∧ a.right = none
        | .right => a.right = some l ∧ a.left = none) ∧
      a.direction = .forward ∧ peer ≠ 0 ∧ v.flags.partnerLost = false ∧
      (v.pairing = .unpaired ∨ v.pairing = .owner ∧ peer = v.peer)) ∧
    (s.assembler.openVehicle = some v → v.pairing ≠ .yielded →
      (v.edgeHalf p a = some (h, l) → s.afterPlacement a = s.admitEdge v a h l) ∧
      (v.edgeHalf p a = none → s.afterPlacement a = s)) ∧
    (∀ oldest rest, s.boundary.edges = oldest :: rest → rest.length = 3 →
      let t := (s.resolveEdge oldest).closeTest
      t.boundary.edges.length < 4 ∧ s.admitEdge v a h l = t.admitEdge v a h l) ∧
    (s.assembler.openVehicle = some v → s.control.station = .running → s.boundary.edges.length < 4 →
      s.link.transmitQueue = [] → s.link.transmitter = .idle →
      ((∀ n ∈ remote, ¬ fits n) → s.admitEdge v a h l = joined) ∧
      (∀ before n after, remote = before ++ n :: after → fits n →
        (∀ m ∈ before, fits m → distance n < distance m) → (∀ m ∈ after, fits m → distance n ≤ distance m) →
        (∀ m ∈ before, m ≠ n) →
        s.admitEdge v a h l = (({ joined with boundary := { joined.boundary with
          remote := match h with
            | .left => { s.boundary.remote with left := before ++ after }
            | .right => { s.boundary.remote with right := before ++ after } } } :
          State).makeMatch e n).closeTest))

/-- The close of the closing vehicle and the waits that run out. The close: a vehicle with an entry in the edge list stays;
without one, an UNPAIRED vehicle, and an OWNER one with its gap due mark and either the yield-closed mark or PARTNER-LOST,
leave the slot through the completion operation, and a YIELDED one with its gap due mark ends as yielded, its YIELD-CLOSED
queued and it counted; any other stays (R104, R108, R109). EDGE_WAIT_EXPIRY of the first entry of the edge list whose wait
exceeds W_s, at a sample instant: in an UNPAIRED or OWNER vehicle the vehicle takes EDGE-UNMATCHED and it is counted; in a
YIELDED one its axle is forwarded as a TRANSFER; a vehicle in the closing slot that has no entry left is then tested for its
close (R91, R100, R103). That the first of several such entries resolves first is the model's choice (notes/assumptions/45).
YIELD_HOLD_EXPIRY of an OWNER vehicle at or past its hold due time without a yield-closed mark: it takes PARTNER-LOST, and
its edge entries leave the list, each counted as unmatched with EDGE-UNMATCHED; in the closing slot, with its gap due mark
set, it then passes through the completion operation at once, not screened; in the open slot it stays (R108, R109, R122). -/
def Obligations.WaitsRunOut : Prop :=
  let met := fun (v : Vehicle) => v.gapDueMark = true ∧ (v.yieldClosed = true ∨ v.flags.partnerLost = true)
  (∀ (s : State) (v : Vehicle), s.assembler.closingVehicle = some v →
    let edge := ∃ e ∈ s.boundary.edges, e.vehicle = v.number
    let gone := { s with assembler := { s.assembler with closingVehicle := none } }
    let ended := gone.produce (.yieldClosed v.peer v.peerVehicle v.forwarded)
    (edge → s.closeTest = s) ∧
    (¬ edge → (v.pairing = .unpaired ∨ v.pairing = .owner ∧ met v) → s.closeTest = gone.complete v) ∧
    (¬ edge → v.pairing = .yielded → v.gapDueMark = true →
      s.closeTest = { ended with counters := counted 5 ended.counters }) ∧
    ((v.pairing = .owner ∧ ¬ met v ∨ v.pairing = .yielded ∧ v.gapDueMark = false) → s.closeTest = s)) ∧
  (∀ (s : State) (v : Vehicle) (e : EdgeEntry) (before after : List EdgeEntry), s.control.station = .running →
    s.localTime.toNat % 2 = 0 → s.boundary.edges = before ++ e :: after →
    (∀ d ∈ before ++ after, d.vehicle = e.vehicle → d.tag ≠ e.tag) →
    let limit : Int := (s.control.params.edgeWait * 16384 / 1000 : Nat)
    (∀ d ∈ before, (s.localTime - d.joined).toInt ≤ limit) → limit < (s.localTime - e.joined).toInt →
    v.number = e.vehicle →
    let left := { s with boundary := { s.boundary with edges := before ++ after } }
    let openIs := fun (t : State) (o : Option Vehicle) => { t with assembler := { t.assembler with openVehicle := o } }
    let closingIs := fun (t : State) (o : Option Vehicle) =>
      { t with assembler := { t.assembler with closingVehicle := o } }
    let tallied := { left with counters := counted 6 s.counters }
    let unmatched := { v with flags := { v.flags with edgeUnmatched := true } }
    let forwarded := { v with forwarded := v.forwarded + 1 }
    let more := ∃ d ∈ before ++ after, d.vehicle = v.number
    let transfer := fun (a : Axle) => Body.transfer v.peer v.peerVehicle a.time a.speed (a.left.map HalfLoad.load)
      (a.right.map HalfLoad.load) a.index a.saturated a.mismatch
    (s.assembler.openVehicle = some v → s.assembler.closingVehicle = none →
      (v.pairing ≠ .yielded → exec .edgeWaitExpiry s = .next (openIs tallied (some unmatched))) ∧
      (∀ a, v.pairing = .yielded → v.axles.find? (fun a => a.tag == e.tag) = some a →
        s.link.transmitQueue = [] → s.link.transmitter = .idle →
        exec .edgeWaitExpiry s = .next { openIs left (some forwarded) with
          link := { s.link with transmitQueue := queued (transfer a), transmitter := .waitIdle } })) ∧
    (s.assembler.closingVehicle = some v → (∀ w, s.assembler.openVehicle = some w → w.number ≠ v.number) →
      (v.pairing ≠ .yielded → (more ∨ v.pairing = .owner ∧ ¬ met v) →
        exec .edgeWaitExpiry s = .next (closingIs tallied (some unmatched))) ∧
      (¬ more → (v.pairing = .unpaired ∨ v.pairing = .owner ∧ met v) →
        exec .edgeWaitExpiry s = .next ((closingIs tallied none).complete unmatched)) ∧
      (∀ a, v.pairing = .yielded → v.axles.find? (fun a => a.tag == e.tag) = some a →
        let sent := left.produce (transfer a)
        let ended := sent.produce (.yieldClosed v.peer v.peerVehicle (v.forwarded + 1))
        ((more ∨ v.gapDueMark = false) →
          exec .edgeWaitExpiry s = .next (closingIs sent (some forwarded))) ∧
        (¬ more → v.gapDueMark = true → exec .edgeWaitExpiry s = .next (closingIs { ended with
          counters := counted 5 ended.counters } none))))) ∧
  ∀ (s : State) (v : Vehicle) (due : LocalTime) (mine : List EdgeEntry), s.control.station = .running →
    s.localTime.toNat % 2 = 0 → v.pairing = .owner → v.yieldClosed = false → v.flags.partnerLost = false →
    v.holdDue = some due → 0 ≤ (s.localTime - due).toInt →
    mine = s.boundary.edges.filter (fun e => e.vehicle == v.number) →
    let p := s.control.params
    let clear := { s with
      boundary := { s.boundary with edges := s.boundary.edges.filter (fun e => e.vehicle != v.number) }
      counters := if mine = [] then s.counters
        else s.counters.set 6 (min 65535 (s.counters[6] + mine.length)) }
    let lost := { v with flags := { v.flags with
      partnerLost := true, edgeUnmatched := v.flags.edgeUnmatched || !mine.isEmpty } }
    let gone := { clear with assembler := { s.assembler with closingVehicle := none } }
    let sm := summarize p v.axles
    let flags := { lost.flags with
      unsteady := v.flags.unsteady || sm.unsteady, singleTrack := v.flags.singleTrack || sm.singleTrack }
    (s.assembler.closingVehicle = some v → (∀ w, s.assembler.openVehicle = some w → w.number ≠ v.number) →
      v.gapDueMark = true →
      exec (.yieldHoldExpiry .closingSlot) s = .next (gone.complete lost) ∧
      (p.camera = 0 → p.tracking = false → p.overloadMode = .off → s.link.transmitQueue = [] →
        s.link.transmitter = .idle → exec (.yieldHoldExpiry .closingSlot) s = .next { gone with
          counters := counted 4 clear.counters
          output := { s.output with overload := false }
          link := { s.link with
            transmitQueue := queued (.vehicle (lost.record p flags
              (classCode (matchedEntry p.classTable v.axles.length sm)) .notScreened sm))
            transmitter := .waitIdle } })) ∧
    (s.assembler.openVehicle = some v → s.assembler.closingVehicle = none →
      exec (.yieldHoldExpiry .openSlot) s = .next { clear with
        assembler := { s.assembler with openVehicle := some lost } })

/-- The remote lists. HALF_AXLE at the head of the receive queue of a measuring station: one that is not of the neighbour
on the facing side is discarded without count; an accepted one that no edge axle of its side matches is discarded without
count where some vehicle of this station yields to the notice's source and vehicle, and otherwise joins the remote list of
its side with its event's time, the frame's timestamp less the carried age; in a full list the oldest is removed and counted
(R94, R95, R96, R97). REMOTE_NOTICE_EXPIRY of the oldest notice of a side, at a sample instant at which its wait exceeds
W_s: it leaves the list and is counted (R96). -/
def Obligations.RemoteNoticesKept : Prop :=
  (∀ (s : State) (f : RxFrame), s.measuring = true → headIs f s → f.kind = .halfAxle → f.source ≠ 0 →
    let p := s.control.params
    let h := halfAxleFields f.payload
    let notice : RemoteNotice :=
      { source := f.source, time := f.stamp - BitVec.ofNat 32 h.age, speed := h.speed, load := h.load
        index := h.index, vehicle := h.vehicle, saturated := h.saturated, mismatch := h.mismatch
        accepted := s.localTime }
    let fromRight := h.side = some .left ∧ f.source = p.neighbour.right
    let fromLeft := h.side = some .right ∧ f.source = p.neighbour.left
    let fits := fun (e : EdgeEntry) => (e.time - notice.time).toInt.natAbs ≤ p.matchWindow ∧
      ((e.speed : Int) - h.speed).natAbs * 100 ≤ p.speedPct * max e.speed h.speed ∧
      ∃ v, s.vehicle e.vehicle = some v ∧
        (v.pairing = .unpaired ∨ v.peer = f.source ∧ v.peerVehicle = h.vehicle)
    let unmatched := fun (side : Half) => ∀ e ∈ s.boundary.edges, e.side = side → ¬ fits e
    let yields := ∃ v, (s.assembler.openVehicle = some v ∨ s.assembler.closingVehicle = some v) ∧
      v.pairing = .yielded ∧ v.peer = f.source ∧ v.peerVehicle = h.vehicle
    (¬ fromRight → ¬ fromLeft → exec .halfAxle s = .next { s with link := withoutHead s.link }) ∧
    (fromRight ∧ unmatched .right ∨ fromLeft ∧ unmatched .left → yields →
      exec .halfAxle s = .next { s with link := withoutHead s.link }) ∧
    (fromRight → unmatched .right → ¬ yields →
      (s.boundary.remote.right.length < 8 → exec .halfAxle s = .next { s with
        link := withoutHead s.link
        boundary := { s.boundary with
          remote := { s.boundary.remote with right := s.boundary.remote.right ++ [notice] } } }) ∧
      (∀ oldest rest, s.boundary.remote.right = oldest :: rest → rest.length = 7 →
        exec .halfAxle s = .next { s with
          link := withoutHead s.link, counters := counted 7 s.counters
          boundary := { s.boundary with
            remote := { s.boundary.remote with right := rest ++ [notice] } } })) ∧
    (fromLeft → unmatched .left → ¬ yields →
      (s.boundary.remote.left.length < 8 → exec .halfAxle s = .next { s with
        link := withoutHead s.link
        boundary := { s.boundary with
          remote := { s.boundary.remote with left := s.boundary.remote.left ++ [notice] } } }) ∧
      (∀ oldest rest, s.boundary.remote.left = oldest :: rest → rest.length = 7 →
        exec .halfAxle s = .next { s with
          link := withoutHead s.link, counters := counted 7 s.counters
          boundary := { s.boundary with
            remote := { s.boundary.remote with left := rest ++ [notice] } } }))) ∧
  ∀ (s : State) (n : RemoteNotice) (rest : List RemoteNotice), s.measuring = true →
    s.localTime.toNat % 2 = 0 →
    (s.localTime - n.accepted).toInt > (s.control.params.edgeWait * 16384 / 1000 : Nat) →
    (s.boundary.remote.left = n :: rest → exec (.remoteNoticeExpiry .left) s = .next { s with
      boundary := { s.boundary with remote := { s.boundary.remote with left := rest } }
      counters := counted 7 s.counters }) ∧
    (s.boundary.remote.right = n :: rest → exec (.remoteNoticeExpiry .right) s = .next { s with
      boundary := { s.boundary with remote := { s.boundary.remote with right := rest } }
      counters := counted 7 s.counters })

/-- An accepted HALF_AXLE makes its match with the entry of its side that fits by R97 and lies nearest in time, the earlier
joined of two, and the close is tested (R99). A match of an UNPAIRED vehicle, open or closing, is its first and decides the
ownership: the larger axle index owns, then the larger half load, then the lower station number (R101). The vehicle's entries
of the other side are resolved as unmatched, each counted in an owner, which takes EDGE-UNMATCHED (R100, R101). The owner
adds the remote half to the matched axle, which is straddled, and with its gap due mark set gets its hold due time, that
instant plus Y (R102, R108); the yielder adds nothing. A later match of a paired vehicle brings no decision: an owner adds the
remote half, and a yielder adds and forwards nothing (R101 to R103). The order of this work is the model's reading
(notes/assumptions/12). -/
def Obligations.FirstMatchDecidesOwner : Prop :=
  (∀ (s : State) (f : RxFrame) (before after : List EdgeEntry) (e : EdgeEntry),
    s.measuring = true → headIs f s → f.kind = .halfAxle → f.source ≠ 0 →
    let p := s.control.params
    let h := halfAxleFields f.payload
    let notice : RemoteNotice :=
      { source := f.source, time := f.stamp - BitVec.ofNat 32 h.age, speed := h.speed, load := h.load
        index := h.index, vehicle := h.vehicle, saturated := h.saturated, mismatch := h.mismatch
        accepted := s.localTime }
    let distance := fun (d : EdgeEntry) => (d.time - notice.time).toInt.natAbs
    let fits := fun (d : EdgeEntry) => d.side = e.side ∧ distance d ≤ p.matchWindow ∧
      ((d.speed : Int) - h.speed).natAbs * 100 ≤ p.speedPct * max d.speed h.speed ∧
      ∃ v, s.vehicle d.vehicle = some v ∧
        (v.pairing = .unpaired ∨ v.peer = f.source ∧ v.peerVehicle = h.vehicle)
    (match e.side with
      | .left => h.side = some .right ∧ f.source = p.neighbour.left
      | .right => h.side = some .left ∧ f.source = p.neighbour.right) →
    s.boundary.edges = before ++ e :: after → fits e →
    (∀ d ∈ before, fits d → distance e < distance d) → (∀ d ∈ after, fits d → distance e ≤ distance d) →
    exec .halfAxle s = .next
      (({ s with link := withoutHead s.link } : State).makeMatch e notice).closeTest) ∧
  ∀ (s : State) (k : Slot) (v : Vehicle) (a : Axle) (e : EdgeEntry) (n : RemoteNotice),
    v.number = e.vehicle → v.axles.find? (fun b => b.tag == e.tag) = some a →
    (match k with
      | .openSlot => s.assembler.openVehicle = some v
      | .closingSlot => s.assembler.closingVehicle = some v ∧
        ∀ w, s.assembler.openVehicle = some w → w.number ≠ v.number) →
    let put := fun (w : Vehicle) => match k with
      | .openSlot => { s.assembler with openVehicle := some w }
      | .closingSlot => { s.assembler with closingVehicle := some w }
    let remote : HalfLoad := { load := n.load, saturated := n.saturated, mismatch := n.mismatch, remote := true }
    let fill := fun (b : Axle) => match e.side with
      | .left => { b with right := some remote }
      | .right => { b with left := some remote }
    let filled := { v with
      axles := v.axles.map (fun b => if b.tag = e.tag then fill b else b)
      flags := { v.flags with
        straddle := true, mismatch := v.flags.mismatch || (fill a).mismatch
        saturated := v.flags.saturated || (fill a).saturated } }
    let rest := s.boundary.edges.filter (fun d => !(d.vehicle == e.vehicle && d.tag == e.tag))
    let others := rest.filter (fun d => d.vehicle == v.number && d.side != e.side)
    let left := rest.filter (fun d => !others.any (fun o => d.vehicle == o.vehicle && d.tag == o.tag))
    let owns := n.index < e.index ∨ n.index = e.index ∧
      (n.load < e.load ∨ n.load = e.load ∧ s.control.number < n.source)
    (v.pairing = .owner → s.makeMatch e n = { s with
      boundary := { s.boundary with edges := rest }, assembler := put filled }) ∧
    (v.pairing = .yielded → s.makeMatch e n = { s with boundary := { s.boundary with edges := rest } }) ∧
    (v.pairing = .unpaired → owns → s.makeMatch e n = { s with
      boundary := { s.boundary with edges := left }
      counters := if others = [] then s.counters
        else s.counters.set 6 (min 65535 (s.counters[6] + others.length))
      assembler := put { filled with
        pairing := .owner, peer := n.source, peerVehicle := n.vehicle
        holdDue := if v.gapDueMark
          then some (s.localTime + BitVec.ofNat 32 (s.control.params.yieldHold * 16384 / 1000)) else v.holdDue
        flags := { filled.flags with edgeUnmatched := v.flags.edgeUnmatched || !others.isEmpty } } }) ∧
    (v.pairing = .unpaired → ¬ owns → v.axles = [a] → others = [] → s.makeMatch e n = { s with
      boundary := { s.boundary with edges := rest }
      assembler := put { v with pairing := .yielded, peer := n.source, peerVehicle := n.vehicle } })

/-- A YIELDED vehicle forwards every axle that no match covers, each once, as a TRANSFER with its peer's vehicle, the axle's
time, speed, half loads, index and marks, and counts it, in RUNNING: at its first match, open or closing, the axles of its
entries on the other side, which resolve as unmatched, and then in list order the axles that are neither the matched one nor stood in the
edge list; and each axle placed later (R100 to R103). In MUTE it forms none (R103, R163). That the entries of the other side
come first, in the order of the edge list, is the model's choice (notes/assumptions/12, 43). -/
def Obligations.YielderForwards : Prop :=
  let transfer := fun (peer number : Nat) (a : Axle) => Body.transfer peer number a.time a.speed
    (a.left.map HalfLoad.load) (a.right.map HalfLoad.load) a.index a.saturated a.mismatch
  (∀ (s : State) (k : Slot) (v : Vehicle) (e : EdgeEntry) (n : RemoteNotice),
    v.pairing = .unpaired → e.vehicle = v.number →
    (match k with
      | .openSlot => s.assembler.openVehicle = some v
      | .closingSlot => s.assembler.closingVehicle = some v ∧
        ∀ w, s.assembler.openVehicle = some w → w.number ≠ v.number) →
    ¬ (n.index < e.index ∨ n.index = e.index ∧ (n.load < e.load ∨ n.load = e.load ∧ s.control.number < n.source)) →
    let rest := s.boundary.edges.filter (fun d => !(d.vehicle == e.vehicle && d.tag == e.tag))
    let others := rest.filter (fun d => d.vehicle == v.number && d.side != e.side)
    let left := rest.filter (fun d => !others.any (fun o => d.vehicle == o.vehicle && d.tag == o.tag))
    let sent := others.filterMap (fun d => v.axles.find? (fun a => a.tag == d.tag)) ++
      v.axles.filter (fun a => a.tag != e.tag && !rest.any (fun d => d.vehicle == v.number && d.tag == a.tag))
    let yielded := fun (count : Nat) =>
      let w := some { v with
        pairing := .yielded, peer := n.source, peerVehicle := n.vehicle, forwarded := count }
      { s with
        boundary := { s.boundary with edges := left }
        assembler := match k with
          | .openSlot => { s.assembler with openVehicle := w }
          | .closingSlot => { s.assembler with closingVehicle := w } }
    (s.control.station = .running → s.makeMatch e n =
      sent.foldl (fun t a => t.produce (transfer n.source n.vehicle a)) (yielded (v.forwarded + sent.length))) ∧
    (s.control.station = .mute .fromRunning → s.makeMatch e n = yielded v.forwarded)) ∧
  ∀ (s : State) (v : Vehicle) (a : Axle), s.assembler.openVehicle = some v → v.pairing = .yielded →
    (s.control.station = .running → s.afterPlacement a = ({ s with
      assembler := { s.assembler with openVehicle := some { v with forwarded := v.forwarded + 1 } } } :
      State).produce (transfer v.peer v.peerVehicle a)) ∧
    (s.control.station = .mute .fromRunning → s.afterPlacement a = s)

/-- A held vehicle that leaves the open slot while an earlier one stands in the closing slot ends that one at once: its edge
entries leave the list, each counted as unmatched with EDGE-UNMATCHED, or, in a YIELDED vehicle, forwarded; then an
UNPAIRED one, and an OWNER one, with PARTNER-LOST if its owner close is not met, pass through the completion operation, and
a YIELDED one ends with its YIELD-CLOSED and is counted, whatever the gap due marks; then the later vehicle stands in the
slot (R100, R103, R104, R110). The order of several entries is the model's choice (notes/assumptions/43). -/
def Obligations.OccupiedClosingSlot : Prop :=
  ∀ (s : State) (v w : Vehicle) (mine : List EdgeEntry), s.assembler.openVehicle = none →
    s.assembler.closingVehicle = some w →
    mine = s.boundary.edges.filter (fun e => e.vehicle == w.number) →
    let clear := { s with
      boundary := { s.boundary with edges := s.boundary.edges.filter (fun e => e.vehicle != w.number) }
      assembler := { s.assembler with closingVehicle := none } }
    let unmatched := if mine = [] then clear else { clear with
      counters := s.counters.set 6 (min 65535 (s.counters[6] + mine.length)) }
    let marked := fun (lost : Bool) => { w with flags := { w.flags with
      edgeUnmatched := w.flags.edgeUnmatched || !mine.isEmpty, partnerLost := w.flags.partnerLost || lost } }
    let after := fun (t : State) => { t with assembler := { t.assembler with closingVehicle := some v } }
    let closed := w.gapDueMark = true ∧ (w.yieldClosed = true ∨ w.flags.partnerLost = true)
    (w.pairing = .unpaired → s.enterClosing v = after (unmatched.complete (marked false))) ∧
    (w.pairing = .owner → closed → s.enterClosing v = after (unmatched.complete (marked false))) ∧
    (w.pairing = .owner → ¬ closed → s.enterClosing v = after (unmatched.complete (marked true))) ∧
    (w.pairing = .yielded → s.control.station = .running →
      ∀ axles : List Axle, mine.map (fun e => w.axles.find? (fun a => a.tag == e.tag)) = axles.map some →
      let sent := axles.foldl (fun t a => t.produce (.transfer w.peer w.peerVehicle a.time a.speed
        (a.left.map HalfLoad.load) (a.right.map HalfLoad.load) a.index a.saturated a.mismatch)) clear
      let ended := sent.produce (.yieldClosed w.peer w.peerVehicle (w.forwarded + axles.length))
      s.enterClosing v = after { ended with counters := counted 5 ended.counters })

/-- TRANSFER at the head of the receive queue of a measuring station: one for another station is discarded; one with a
speed out of range or without a half is counted as discarded; one that finds no OWNER vehicle of its source and number
without PARTNER-LOST is a late transfer. An OWNER vehicle that takes it, open or closing, counts it. One with a single half
merges into a single-half axle of the vehicle whose half is local and on the other side, within K: the nearest in time, of
two at equal distance the earlier; that axle leaves the edge list, as covered and without count, and a closing vehicle is
then tested for its close. Failing that, one with a single half near an axle that holds a remote half is covered by that
axle and is a late transfer; failing both, a full vehicle takes TRUNCATED, and any other inserts it after every axle whose
time is at or before its own, as the latest axle when its time is later than t_last (R81, R94, R102, R105, R109). That the
number names the owner's own vehicle, and the limit of the received count, are the model's reading (notes/assumptions/11,
21). -/
def Obligations.TransferTaken : Prop :=
  ∀ (s : State) (f : RxFrame), s.measuring = true → headIs f s → f.kind = .transfer → f.source ≠ 0 →
    let t := transferFields f.payload
    let p := s.control.params
    let time := f.stamp - BitVec.ofNat 32 t.age
    let half := fun (load : Nat) =>
      ({ load := load, saturated := t.saturated, mismatch := t.mismatch, remote := true } : HalfLoad)
    let sound := t.owner = s.control.number ∧ 1000 ≤ t.speed ∧ t.speed ≤ 70000 ∧ (t.left ≠ none ∨ t.right ≠ none)
    let takes := fun (v : Vehicle) =>
      v.pairing = .owner ∧ v.peer = f.source ∧ v.number = t.vehicle ∧ v.flags.partnerLost = false
    let takenBy := fun (k : Slot) (v : Vehicle) => takes v ∧ match k with
      | .openSlot => s.assembler.openVehicle = some v
      | .closingSlot => s.assembler.closingVehicle = some v ∧ ∀ w, s.assembler.openVehicle = some w → ¬ takes w
    let distance := fun (a : Axle) => (a.time - time).toInt.natAbs
    let near := fun (a : Axle) => distance a ≤ p.matchWindow
    let single := t.left = none ∧ t.right ≠ none ∨ t.left ≠ none ∧ t.right = none
    let merges := fun (a : Axle) => near a ∧
      (t.right = none ∧ a.left = none ∧ (∃ r, a.right = some r ∧ r.remote = false) ∨
        t.left = none ∧ a.right = none ∧ ∃ l, a.left = some l ∧ l.remote = false)
    let covers := fun (a : Axle) => near a ∧
      ((∃ l, a.left = some l ∧ l.remote = true) ∨ ∃ r, a.right = some r ∧ r.remote = true)
    let counted' := fun (v : Vehicle) => { v with received := min 255 (v.received + 1) }
    let after := fun (k : Slot) (v : Vehicle) => { s with
      link := withoutHead s.link
      assembler := match k with
        | .openSlot => { s.assembler with openVehicle := some v }
        | .closingSlot => { s.assembler with closingVehicle := some v } }
    let marks := fun (v : Vehicle) (a : Axle) => { v.flags with
      straddle := true, mismatch := v.flags.mismatch || a.mismatch, saturated := v.flags.saturated || a.saturated }
    (t.owner ≠ s.control.number → exec .transfer s = .next { s with link := withoutHead s.link }) ∧
    (t.owner = s.control.number →
      (t.speed < 1000 ∨ 70000 < t.speed ∨ t.left = none ∧ t.right = none) →
      exec .transfer s = .next { s with link := withoutHead s.link, counters := counted 10 s.counters }) ∧
    (sound → (∀ v, s.assembler.openVehicle = some v ∨ s.assembler.closingVehicle = some v → ¬ takes v) →
      exec .transfer s = .next { s with link := withoutHead s.link, counters := counted 8 s.counters }) ∧
    (∀ (k : Slot) (v : Vehicle) (before after' : List Axle), sound → takenBy k v → v.axles.length < 12 →
      (single → (∀ a ∈ v.axles, ¬ merges a) ∧ ∀ a ∈ v.axles, ¬ covers a) →
      v.axles = before ++ after' → (∀ b ∈ before, 0 ≤ (time - b.time).toInt) →
      (∀ b ∈ after'.head?, (time - b.time).toInt < 0) →
      let axle : Axle :=
        { tag := v.nextTag, index := before.length + 1, time := time, speed := t.speed
          direction := v.direction, left := t.left.map half, right := t.right.map half }
      let latest := 0 < (time - v.lastTime).toInt
      exec .transfer s = .next (after k { counted' v with
        axles := before ++ axle :: after', nextTag := v.nextTag + 1, flags := marks v axle
        lastTime := if latest then time else v.lastTime
        lastSpeed := if latest then t.speed else v.lastSpeed
        gapDue := if latest then time + BitVec.ofNat 32 ((p.maxSpacing + p.spacing) * 16384 / t.speed)
          else v.gapDue })) ∧
    (∀ (k : Slot) (v : Vehicle) (h : Half) (load : Nat) (before : List Axle) (a : Axle) (after' : List Axle),
      sound → takenBy k v →
      (match h with
        | .left => t.left = some load ∧ t.right = none
        | .right => t.left = none ∧ t.right = some load) →
      v.axles = before ++ a :: after' → (∀ b ∈ before ++ after', b.tag ≠ a.tag) → merges a →
      (∀ b ∈ before, merges b → distance a < distance b) → (∀ b ∈ after', merges b → distance a ≤ distance b) →
      let filled : Axle := match h with
        | .left => { a with left := some (half load) }
        | .right => { a with right := some (half load) }
      let merged := { after k { counted' v with axles := before ++ filled :: after', flags := marks v filled } with
        boundary := { s.boundary with
          edges := s.boundary.edges.filter (fun e => !(e.vehicle == v.number && e.tag == a.tag)) } }
      exec .transfer s = .next merged.closeTest ∧
        (s.assembler.closingVehicle = none → exec .transfer s = .next merged)) ∧
    (∀ (k : Slot) (v : Vehicle), sound → single → takenBy k v → (∀ a ∈ v.axles, ¬ merges a) → (∃ a ∈ v.axles, covers a) →
      exec .transfer s = .next { after k (counted' v) with counters := counted 8 s.counters }) ∧
    (∀ (k : Slot) (v : Vehicle), sound → takenBy k v → v.axles.length = 12 →
      (single → (∀ a ∈ v.axles, ¬ merges a) ∧ ∀ a ∈ v.axles, ¬ covers a) →
      exec .transfer s = .next (after k { counted' v with flags := { v.flags with truncated := true } }))

/-- YIELD_CLOSED at the head of the receive queue of a measuring station: one for another station, or that finds no OWNER
vehicle of its source and number without PARTNER-LOST, is discarded; an OWNER vehicle, open or closing, takes its mark,
and INCOMPLETE when more axles were forwarded than it received. An open one then waits for its own gap timer; the close of a
closing one is tested at once: with its gap due mark and without an entry in the edge list it passes through the completion
operation, and otherwise it stays (R105, R107 to R109). That the number names the owner's own vehicle is the model's
reading (notes/assumptions/11). -/
def Obligations.YieldClosedTaken : Prop :=
  ∀ (s : State) (f : RxFrame), s.measuring = true → headIs f s → f.kind = .yieldClosed → f.source ≠ 0 →
    let y := yieldFields f.payload
    let takes := fun (v : Vehicle) =>
      v.pairing = .owner ∧ v.peer = f.source ∧ v.number = y.vehicle ∧ v.flags.partnerLost = false
    let marked := fun (v : Vehicle) => { v with
      yieldClosed := true
      flags := { v.flags with
        incomplete := v.flags.incomplete || decide (v.received < y.forwarded) } }
    let closingIs := fun (o : Option Vehicle) => { s with
      link := withoutHead s.link, assembler := { s.assembler with closingVehicle := o } }
    ((y.owner ≠ s.control.number ∨
        ∀ v, s.assembler.openVehicle = some v ∨ s.assembler.closingVehicle = some v → ¬ takes v) →
      exec .yieldClosed s = .next { s with link := withoutHead s.link }) ∧
    (∀ v, y.owner = s.control.number → s.assembler.openVehicle = some v → s.assembler.closingVehicle = none →
      takes v →
      exec .yieldClosed s = .next { s with
        link := withoutHead s.link
        assembler := { s.assembler with openVehicle := some (marked v) } }) ∧
    (∀ v, y.owner = s.control.number → s.assembler.closingVehicle = some v → takes v →
      (∀ w, s.assembler.openVehicle = some w → ¬ takes w) →
      let edge := ∃ e ∈ s.boundary.edges, e.vehicle = v.number
      (¬ edge → v.gapDueMark = true → exec .yieldClosed s = .next ((closingIs none).complete (marked v))) ∧
      ((edge ∨ v.gapDueMark = false) → exec .yieldClosed s = .next (closingIs (some (marked v)))))

/-- ANNOUNCE of a station at the head of the receive queue of a measuring station: its notices leave both remote lists, and
every vehicle, open or closing, whose peer that station is and which carries no PARTNER-LOST takes PARTNER-LOST, a YIELDED one
becoming UNPAIRED as well. All edge entries of such a vehicle leave the edge list, each counted as unmatched with
EDGE-UNMATCHED, and none is forwarded. The close of the closing vehicle is then tested: one that has lost its partner passes
through the completion operation at once where it yielded or has its gap due mark, and otherwise stays. A vehicle of another
peer, or of none, stays as it is (R100, R109, R111). What the vehicle that becomes UNPAIRED holds of its peer is the model's
reading (notes/assumptions/37). -/
def Obligations.PartnerRestartTaken : Prop :=
  ∀ (s : State) (f : RxFrame), s.measuring = true → headIs f s → f.kind = .announce → f.source ≠ 0 →
    (∀ v w, s.assembler.openVehicle = some v → s.assembler.closingVehicle = some w → v.number ≠ w.number) →
    let others := fun (l : List RemoteNotice) => l.filter (fun n => n.source != f.source)
    let loses := fun (v : Vehicle) => decide (v.pairing ≠ .unpaired ∧ v.peer = f.source ∧ v.flags.partnerLost = false)
    let mine := fun (v : Vehicle) (e : EdgeEntry) => e.vehicle == v.number
    let resolves := fun (e : EdgeEntry) =>
      s.assembler.openVehicle.any (fun v => loses v && mine v e) ||
        s.assembler.closingVehicle.any (fun v => loses v && mine v e)
    let lost := fun (v : Vehicle) =>
      let w := { v with flags := { v.flags with
        partnerLost := true, edgeUnmatched := v.flags.edgeUnmatched || s.boundary.edges.any (mine v) } }
      if v.pairing = .yielded then { w with pairing := .unpaired, peer := 0, peerVehicle := 0, forwarded := 0 } else w
    let n := (s.boundary.edges.filter resolves).length
    let after := fun (open' closing : Option Vehicle) => { s with
      link := withoutHead s.link
      boundary :=
        { edges := s.boundary.edges.filter (fun e => !resolves e)
          remote := { left := others s.boundary.remote.left, right := others s.boundary.remote.right } }
      counters := if n = 0 then s.counters else s.counters.set 6 (min 65535 (s.counters[6] + n))
      assembler := { s.assembler with openVehicle := open', closingVehicle := closing } }
    let open' := s.assembler.openVehicle.map (fun v => if loses v then lost v else v)
    let closing := s.assembler.closingVehicle.map (fun v => if loses v then lost v else v)
    exec .announce s = .next (after open' closing).closeTest ∧
    (s.assembler.closingVehicle = none → exec .announce s = .next (after open' none)) ∧
    ∀ w, s.assembler.closingVehicle = some w → loses w = true →
      ((w.pairing = .yielded ∨ w.gapDueMark = true) →
        exec .announce s = .next ((after open' none).complete (lost w))) ∧
      (w.pairing = .owner → w.gapDueMark = false → exec .announce s = .next (after open' (some (lost w))))

/-! ## Outputs -/

/-- The output lines. The camera line: a due head trigger in IDLE leaves the queue and starts a pulse of P_w; the pulse's end
releases the line into a gap of G_t; the gap's end starts the pulse of a due head, and otherwise leaves the line IDLE
(R150, R151). The overload line takes a verdict by its mode: OFF never asserts it, FOLLOW shows the latest screened verdict,
LATCH holds an over verdict; nothing else changes (R153, R154). The fault line is asserted exactly in MUTE, in HALTED, in a
line fault and in the store's FAULT (R157). That the gap runs from the stored end of the pulse, and that an event that is
not due changes nothing, are the model's reading (notes/assumptions/4, 38). -/
def Obligations.OutputLinesRun : Prop :=
  ∀ (s : State),
    let p := s.control.params
    let pulse := fun (rest : List LocalTime) => { s with output := { s.output with
      triggers := rest, camera := .pulse
      cameraEnd := some (s.localTime + BitVec.ofNat 32 (p.pulseWidth * 16384 / 1000)) } }
    let passed := fun (t : LocalTime) => 0 ≤ (s.localTime - t).toInt
    (∀ fire rest, s.output.camera = .idle → s.output.triggers = fire :: rest →
      exec .triggerDue s = .next (if passed fire then pulse rest else s)) ∧
    (∀ stop, s.output.camera = .pulse → s.output.cameraEnd = some stop →
      exec .pulseEnd s = .next (if passed stop then { s with output := { s.output with
        camera := .gap
        cameraEnd := some (stop + BitVec.ofNat 32 (p.pulseGap * 16384 / 1000)) } } else s)) ∧
    (∀ stop, s.output.camera = .gap → s.output.cameraEnd = some stop → passed stop →
      (s.output.triggers = [] → exec .gapEnd s = .next { s with output := { s.output with
        camera := .idle, cameraEnd := none } }) ∧
      (∀ fire rest, s.output.triggers = fire :: rest → exec .gapEnd s = .next
        (if passed fire then pulse rest else { s with output := { s.output with
          camera := .idle, cameraEnd := none } }))) ∧
    (s.output.camera = .gap → s.output.cameraEnd = none → exec .gapEnd s = .next s) ∧
    (s.cameraLine = true ↔ s.output.camera = .pulse) ∧
    (∀ verdict : Verdict,
      let line := fun (b : Bool) => { s with output := { s.output with overload := b } }
      let isOver := verdict = .axleOver ∨ verdict = .grossOver ∨ verdict = .bothOver
      (p.overloadMode = .off → s.takeVerdict verdict = line false) ∧
      (p.overloadMode = .follow →
        (isOver → s.takeVerdict verdict = line true) ∧
        (verdict = .clear → s.takeVerdict verdict = line false) ∧
        (verdict = .notScreened → s.takeVerdict verdict = s)) ∧
      (p.overloadMode = .latch →
        (isOver → s.takeVerdict verdict = line true) ∧ (¬ isOver → s.takeVerdict verdict = s))) ∧
    (s.overloadLine = true ↔ s.output.overload = true) ∧
    (s.faultLine = true ↔ (∃ o, s.control.station = .mute o) ∨ s.control.station = .halted ∨
      s.link.monitor = .lineFault ∨ s.drift.store = .fault)

/-- The trigger stage: an over verdict with X_cam above 0 schedules a trigger at t_last + floor((D + X_cam) × 16384 /
v_last), or at once with LATE-TRIGGER when that is not after the present; it enters after every entry not later than
itself and before every later one; a full queue drops it with TRIGGER-LOST and a count; any other vehicle schedules
nothing (R146 to R149). That a late trigger stands behind every due entry, where R151 has it become the head, is the
model's choice (notes/assumptions/44). -/
def Obligations.TriggerScheduled : Prop :=
  ∀ (v : Vehicle) (flags : Flags) (verdict : Verdict) (s : State),
    let p := s.control.params
    let isOver := verdict = .axleOver ∨ verdict = .grossOver ∨ verdict = .bothOver
    let fire := v.lastTime + BitVec.ofNat 32 ((p.spacing + p.camera) * 16384 / v.lastSpeed)
    let late := (fire - s.localTime).toInt ≤ 0
    let time := if late then s.localTime else fire
    ((¬ isOver ∨ p.camera = 0) → s.scheduleTrigger v flags verdict = (flags, s)) ∧
    (isOver → p.camera ≠ 0 → s.output.triggers.length = 4 →
      s.scheduleTrigger v flags verdict =
        ({ flags with triggerLost := true }, { s with counters := counted 15 s.counters })) ∧
    (∀ before after, isOver → p.camera ≠ 0 → s.output.triggers = before ++ after →
      s.output.triggers.length < 4 → (∀ u ∈ before, 0 ≤ (time - u).toInt) →
      (∀ u ∈ after.head?, (time - u).toInt < 0) →
      s.scheduleTrigger v flags verdict =
        ({ flags with lateTrigger := flags.lateTrigger || decide late },
         { s with output := { s.output with triggers := before ++ time :: after } }))

/-! ## Drift and the correction store -/

/-- A vehicle that fails any condition of a reference sample, tracking off, another class, one of the twelve flags, a mean
speed or gross out of its range, no first axle with both halves, or its load outside N/2..2N, leaves the tracker as it was
(R131). A reference sample adds its normalised first-axle load to the band its vehicle latched; the sample that brings the
count to M updates that band: the correction becomes the target, rounded half up, held to within Δ of the old correction
and then to 3686..4506, the window is emptied, the update counted, and a save requested. No other band changes (R131 to
R133, R136). A request finds the store IDLE: the save begins with its snapshot, its erase sent at the first sample instant
at or after the request and due 32,768 half-ticks later (R135, R137); in a save it sets AGAIN; in FAULT it does nothing
(R140). The record of the memory port, and the first status read behind the erase, are the model's own
(notes/assumptions/22, 32). -/
def Obligations.ReferenceSampleUpdatesBand : Prop :=
  ∀ (v : Vehicle) (f : Flags) (cls : Nat) (sm : Summary) (s : State),
    let p := s.control.params
    let reference := p.tracking = true ∧ cls = p.refClass ∧
      f.incomplete = false ∧ f.mismatch = false ∧ f.saturated = false ∧ f.truncated = false ∧
      f.continuation = false ∧ f.wrongWay = false ∧ f.tempDefault = false ∧ f.partnerLost = false ∧
      f.edgeUnmatched = false ∧ f.straddle = false ∧ f.unsteady = false ∧ f.tempHeld = false ∧
      p.refSpeed.1 ≤ sm.meanSpeed ∧ sm.meanSpeed ≤ p.refSpeed.2 ∧
      p.refGross.1 ≤ sm.gross ∧ sm.gross ≤ p.refGross.2 ∧
      ∃ a rest, v.axles = a :: rest ∧ a.left ≠ none ∧ a.right ≠ none ∧ p.nominal ≤ 2 * a.load ∧
        a.load ≤ 2 * p.nominal
    let t := s.driftStage v f cls sm
    (¬ reference → t = s) ∧
    ∀ a rest, reference → v.axles = a :: rest →
    let b := v.latched.band
    let old := s.drift.bands[b]
    let sum := old.sum + a.load * 4096 / v.correction
    let target := (2 * 4096 * p.nominal * p.samples + sum) / (2 * sum)
    let stepped := max (old.correction - p.maxStep) (min (old.correction + p.maxStep) target)
    let new : Band :=
      { correction := max 3686 (min 4506 stepped), count := 0, sum := 0, updates := min 65535 (old.updates + 1) }
    let bands := s.drift.bands.set b new
    let sent := if s.localTime.toNat % 2 = 0 then s.localTime else s.localTime + 1
    (old.count + 1 < p.samples →
      t = { s with drift := { s.drift with
        bands := s.drift.bands.set b { old with count := old.count + 1, sum := sum } } }) ∧
    (old.count + 1 = p.samples →
      (s.drift.store = .fault → t = { s with drift := { s.drift with bands := bands } }) ∧
      (s.drift.store = .erasing ∨ s.drift.store = .programming ∨ s.drift.store = .verifying →
        t = { s with drift := { s.drift with bands := bands, again := true } }) ∧
      (s.drift.store = .idle → t = { s with drift := { s.drift with
        bands := bands, store := .erasing
        snapshot := some
          { corrections := bands.toList.map Band.correction, updates := bands.toList.map Band.updates
            saveCount := min 65535 (s.drift.saveCount + 1) }
        phaseDue := some (sent + 32768), phaseAt := sent
        port := [.writeEnable, .sectorErase 4096, .readStatus] } }))

/-- A save, phase by phase. The status is read at each sample instant of ERASING and PROGRAMMING, the first time behind the
phase's commands, at `phaseAt`, and each result is taken at the next sample instant: a ready erase programs the snapshot, due
819 half-ticks later; a ready program reads the record back; a phase that is due and not ready enters FAULT, which discards the snapshot and the AGAIN mark (R137, R138, R140). VERIFY comes at
the sample instant after the read was sent: a read-back equal to the snapshot's record completes the save, the save count
taking the snapshot's; with the AGAIN mark a new save begins at once from the corrections as they stand, its erase due 32,768
half-ticks later; any other read-back enters FAULT (R135, R137, R139, R140). At any other instant none of these does
anything. The record of the memory port, and the first status read at the instant of the phase's commands, are the model's
(notes/assumptions/4, 22, 32). -/
def Obligations.SaveRuns : Prop :=
  ∀ (s : State) (snap : Correction) (readBack : List Byte), s.drift.snapshot = some snap →
    let even := s.localTime.toNat % 2 = 0
    let after := 0 < (s.localTime - s.drift.phaseAt).toInt
    let ends := s.localTime = s.drift.phaseAt + 2
    let failed := { s with drift := { s.drift with
      store := .fault, again := false, snapshot := none, phaseDue := none } }
    (even → after → s.drift.store = .erasing → exec .eraseReady s = .next { s with drift := { s.drift with
      store := .programming, phaseDue := some (s.localTime + 819), phaseAt := s.localTime
      port := [.writeEnable, .pageProgram 4096 snap.bytes, .readStatus] } }) ∧
    (even → after → s.drift.store = .programming → exec .programReady s = .next { s with drift := { s.drift with
      store := .verifying, phaseAt := s.localTime, port := [.readData 4096 36] } }) ∧
    (¬ (even ∧ after) → exec .eraseReady s = .next s ∧ exec .programReady s = .next s) ∧
    (∀ due, even → s.drift.phaseDue = some due → 0 ≤ (s.localTime - due).toInt →
      (s.drift.store = .erasing → exec .eraseTimeout s = .next failed) ∧
      (s.drift.store = .programming → exec .programTimeout s = .next failed)) ∧
    (even → ends → s.drift.store = .verifying → readBack = snap.bytes → s.drift.again = false →
      exec (.verify readBack) s = .next { s with drift := { s.drift with
        store := .idle, snapshot := none, phaseDue := none, saveCount := snap.saveCount } }) ∧
    (even → ends → s.drift.store = .verifying → readBack = snap.bytes → s.drift.again = true →
      exec (.verify readBack) s = .next { s with drift := { s.drift with
        store := .erasing, again := false, saveCount := snap.saveCount
        snapshot := some
          { corrections := s.drift.bands.toList.map Band.correction
            updates := s.drift.bands.toList.map Band.updates
            saveCount := min 65535 (snap.saveCount + 1) }
        phaseDue := some (s.localTime + 32768), phaseAt := s.localTime
        port := [.writeEnable, .sectorErase 4096, .readStatus] } }) ∧
    (even → ends → s.drift.store = .verifying → readBack ≠ snap.bytes →
      exec (.verify readBack) s = .next failed) ∧
    (¬ (even ∧ ends) → exec (.verify readBack) s = .next s)

/-- What is written reads back. A correction record that the store writes is 36 bytes, is good, and reads back as the
corrections, the update counts and the save count it was formed from; a blank sector and a sector of zeros are not good
(R135, R141). The payloads that stations take from one another read back with every field that was formed into them, over
the whole range of each field, the event age as the time from the event to the start bit (R93, R94, 11 Byte layouts). The
ANNOUNCE, STATUS and VEHICLE payloads, which no station takes, hold each field at its offset, most significant byte first,
the marks at their bits, the sixteen flags from bit 15 in the order of the flag table (R83, R86, R87, R168, R169). -/
def Obligations.RecordsAndPayloadsReadBack : Prop :=
  (∀ c : Correction, c.corrections.length = 8 → c.updates.length = 8 → (∀ x ∈ c.corrections, x < 65536) →
    (∀ x ∈ c.updates, x < 65536) → c.saveCount < 65536 →
    c.bytes.length = 36 ∧ goodCorrection c.bytes = true ∧ readCorrection c.bytes = c) ∧
  goodCorrection (List.replicate 36 0xFF) = false ∧ goodCorrection (List.replicate 36 0) = false ∧
  (∀ (start : LocalTime) (lane left right revision : Nat) (image : ImageState) (adjusted defaulted : Bool)
    (causes : Causes), lane < 256 → left < 16 → right < 16 → revision < 65536 →
    let a := (Body.announce lane left right image adjusted defaulted causes revision).payload start
    a.length = 6 ∧ byteAt a 0 = lane ∧ byteAt a 1 = 16 * left + right ∧
      (∀ n, (image = .good ∧ n = 0 ∨ image = .noMemory ∧ n = 1 ∨ image = .badFormat ∧ n = 2 ∨
        image = .badLength ∧ n = 3 ∨ image = .badCheck ∧ n = 4) →
        byteAt a 2 = n + 16 * adjusted.toNat + 32 * defaulted.toNat) ∧
      byteAt a 3 = causes.power.toNat + 2 * causes.pin.toNat + 4 * causes.command.toNat ∧ u16At a 4 = revision) ∧
  (∀ (start : LocalTime) (running suspect storeFault defaulted overload adjusted : Bool) (own : OwnStatus)
    (counters : Vector Nat 16), (∀ n : Fin 16, counters[n] < 65536) →
    let a := (Body.status running own suspect storeFault defaulted overload adjusted counters).payload start
    a.length = 38 ∧ byteAt a 0 = (if running then 1 else 2) ∧
      (∀ n, (own = .absent ∧ n = 0 ∨ own = .starting ∧ n = 1 ∨ own = .valid ∧ n = 2 ∨ own = .hold ∧ n = 3 ∨
        own = .stale ∧ n = 4) → byteAt a 1 = n + 8 * suspect.toNat + 16 * storeFault.toNat +
          32 * defaulted.toNat + 64 * overload.toNat + 128 * adjusted.toNat) ∧
      65536 * u16At a 2 + u16At a 4 = start.toNat ∧ ∀ n : Fin 16, u16At a (6 + 2 * n) = counters[n]) ∧
  (∀ (start : LocalTime) (r : Record), r.lane < 256 → r.number < 65536 → r.axles.length < 256 →
    r.classCode < 256 → r.meanSpeed < 2 ^ 24 → r.gross < 2 ^ 24 → r.wheelbase < 2 ^ 24 → -32768 ≤ r.temp →
    r.temp ≤ 32767 → r.correction < 65536 → (∀ a ∈ r.axles, a.load < 65536) → (∀ x ∈ r.spacings, x < 65536) →
    let a := (Body.vehicle r).payload start
    let f := r.flags
    let n := r.axles.length
    a.length = 26 + 3 * n + 2 * r.spacings.length ∧ byteAt a 0 = r.lane ∧ u16At a 1 = r.number ∧
      65536 * u16At a 3 + u16At a 5 = r.firstTime.toNat ∧ byteAt a 7 = n ∧ byteAt a 8 = r.classCode ∧
      (∀ c, (r.verdict = .clear ∧ c = 0 ∨ r.verdict = .axleOver ∧ c = 1 ∨ r.verdict = .grossOver ∧ c = 2 ∨
        r.verdict = .bothOver ∧ c = 3 ∨ r.verdict = .notScreened ∧ c = 4) → byteAt a 9 = c) ∧
      (∀ i : Fin 16, (u16At a 10).testBit (15 - i) = [f.incomplete, f.mismatch, f.saturated, f.truncated,
        f.continuation, f.unsteady, f.wrongWay, f.straddle, f.edgeUnmatched, f.partnerLost, f.tempHeld, f.tempDefault,
        f.lateTrigger, f.triggerLost, f.singleTrack, f.correctionDefault][i]) ∧
      u24At a 12 = r.meanSpeed ∧ u24At a 15 = r.gross ∧ u24At a 18 = r.wheelbase ∧ s16At a 21 = r.temp ∧
      (∀ c, (r.source = .own ∧ c = 0 ∨ r.source = .peer ∧ c = 1 ∨ r.source = .ownHeld ∧ c = 2 ∨
        r.source = .held ∧ c = 3 ∨ r.source = .default ∧ c = 4) → byteAt a 23 = 16 * c + r.band) ∧
      u16At a 24 = r.correction ∧
      (∀ (i : Nat) (x : RecordAxle), r.axles[i]? = some x → u16At a (26 + 3 * i) = x.load ∧
        byteAt a (28 + 3 * i) = 32 * x.left.toNat + 16 * x.right.toNat + 8 * x.reverse.toNat +
          4 * x.saturated.toNat + 2 * x.mismatch.toNat + x.straddled.toNat) ∧
      ∀ (i x : Nat), r.spacings[i]? = some x → u16At a (26 + 3 * n + 2 * i) = x) ∧
  ∀ (start event : LocalTime) (speed load index number owner forwarded : Nat) (left right : Option Nat)
    (side : Half) (saturated mismatch : Bool) (T : Int),
    speed < 2 ^ 24 → load < 65536 → index < 256 → number < 65536 → owner < 256 → forwarded < 256 →
    (∀ x, left = some x → x < 65535) → (∀ x, right = some x → x < 65535) →
    -32768 ≤ T → T ≤ 32767 → (start - event).toNat ≤ 65535 →
    halfAxleFields ((Body.halfAxle side event speed load index number saturated mismatch).payload start) =
      { side := some side, age := (start - event).toNat, speed := speed, load := load, index := index
        vehicle := number, saturated := saturated, mismatch := mismatch } ∧
    transferFields ((Body.transfer owner number event speed left right index saturated mismatch).payload start) =
      { owner := owner, vehicle := number, age := (start - event).toNat, speed := speed, left := left
        right := right, index := index, saturated := saturated, mismatch := mismatch } ∧
    yieldFields ((Body.yieldClosed owner number forwarded).payload start) =
      { owner := owner, vehicle := number, forwarded := forwarded } ∧
    temperatureValue ((Body.temperature T).payload start) = T ∧
    State.eventTime start (start - event).toNat = event

/-! ## The site link -/

/-- A receiver takes exactly the frames that pass the checks: at least 4 characters, a known kind with its own priority
class in the header, a source of 15 at most, the length of the payload that stands there and that the kind has, and the
check character (R175, R176, R179). A frame that the station forms passes them, whatever it carries; its characters carry
mark 1 on the header and mark 0 after it; and a READY receiver that takes them cleanly one after the other holds the frame
in its buffer (R173, R175, R178), as its own where an attempt of its own is under way (notes/assumptions/14). -/
def Obligations.FormedFrameIsGood : Prop :=
  (∀ (bytes : List Byte) (k : Kind) (source : Nat) (payload : List Byte),
    checkFrame bytes = some (k, source, payload) ↔ source ≤ 15 ∧ k.lengthFits payload = true ∧
      ∃ header from' length check : Byte, bytes = header :: from' :: length :: payload ++ [check] ∧
        header.toNat = 32 * k.priority + k.code ∧ from'.toNat = source ∧ length.toNat = payload.length ∧
        check = crc8 (header :: from' :: length :: payload)) ∧
  ∀ (source : Nat) (b : Body) (start : LocalTime), source ≤ 15 →
    (∀ r, b = .vehicle r → 1 ≤ r.axles.length ∧ r.axles.length ≤ 12 ∧
      r.spacings.length + 1 = r.axles.length) →
    checkFrame (frameBytes source b start) = some (b.kind, source, b.payload start) ∧
    (frameCharacters source b start).map Character.data = frameBytes source b start ∧
    (frameCharacters source b start).map Character.mark =
      true :: List.replicate (3 + (b.payload start).length) false ∧
    ∀ (s : State) (stamp : LocalTime), s.link.receiver = .ready →
      (frameCharacters source b start).foldl (fun t c => t.takeCharacter c.mark c.data true false stamp) s =
        { s with link := { s.link with
          receiver := .inFrame, buffer := frameBytes source b start, bufferStamp := stamp, bufferNoise := false
          bufferOwn := s.ownAttempt, ownSent := false } }

/-- The line monitor by the table of R174, with what each move does to the receiver: BREAK and LINE-FAULT put it in HUNT and
discard a frame in reception, which is counted outside STARTING unless it is the station's own under attempt, a frame of
another node's that an attempt finds in the buffer being none (notes/assumptions/14); LINE-FAULT is counted; IDLE readies a
receiver that holds no frame (R159, R174, R178, R179). While the pin holds the station in reset the monitor does not run
(R159, R189). -/
def Obligations.LineMonitorMoves : Prop :=
  ∀ s : State,
    let moved := fun (m : Monitor) => { s.link with monitor := m }
    let emptied := fun (m : Monitor) (r : Receiver) =>
      { s.link with
        monitor := m, receiver := r, buffer := [], bufferNoise := false, bufferOwn := false, ownSent := false }
    let own := s.link.bufferOwn = true ∧
      (s.link.transmitter = .arbitrating ∨ s.link.transmitter = .sending ∨ s.link.transmitter = .breaking)
    let cut := if s.link.receiver = .inFrame ∧ ¬ own ∧ s.control.station ≠ .starting
      then counted 10 s.counters else s.counters
    (s.control.held = false →
      (s.link.monitor = .idle → exec .lineBusy s = .next { s with link := moved .busy }) ∧
      (s.link.monitor = .busy → s.link.receiver = .hunt →
        exec .lineIdle s = .next { s with link := emptied .idle .ready }) ∧
      (s.link.monitor = .busy → s.link.receiver = .ready →
        exec .lineIdle s = .next { s with link := moved .idle }) ∧
      (s.link.monitor = .busy → exec .lineBreak s = .next { s with
        link := emptied .breakSeen .hunt, counters := cut }) ∧
      (s.link.monitor = .breakSeen → exec .breakLineReleased s = .next { s with link := moved .busy }) ∧
      (s.link.monitor = .breakSeen → exec .lineFault s = .next { s with
        link := emptied .lineFault .hunt, counters := counted 14 cut }) ∧
      (s.link.monitor = .lineFault → s.link.receiver = .hunt →
        exec .lineFaultEnd s = .next { s with link := emptied .idle .ready })) ∧
    (s.control.held = true → ∀ c ∈ [Instr.lineBusy, .lineIdle, .lineBreak, .breakLineReleased, .lineFault,
      .lineFaultEnd], exec c s = .next s)

/-- RECEIVE_CHARACTER by the state of the receiver, outside a hold on the reset pin: each bit is the majority of its three
samples; a start bit read recessive was a glitch and nothing is taken; HUNT takes no character; a clean header in READY
starts a frame with the timestamp of its edge, the station's own while an attempt of its own is under way; a clean
character with mark 0 joins the frame up to the hundredth, a length up to 96, and brings its noise; any other is refused
and hunts, and counts a discarded frame outside STARTING: but not the station's own frame, spoilt past arbitration, nor
the header that its own break spoils; a frame of another node's, which an attempt of this station's found in the buffer,
counts even in the station's own break (R159, R172, R173, R177, R178, R179, R184). Which frame is the station's own is read
from R179, and a stop bit that the fourth bit error spoils counts by the order in which the two commands come
(notes/assumptions/14). That the header's own noise is kept, where R178 speaks of a clear noise mark, and that
the command names the edge as so many half-ticks ago, are the model's choice (notes/assumptions/15, 16), and so it is that
a station held by its reset pin takes no character, whatever its receiver (notes/assumptions/9). -/
def Obligations.CharacterReceived : Prop :=
  ∀ (s : State) (c : LineCharacter) (edgeAge : Nat) (data : Byte) (noise own : Bool),
    let value := fun (b : BitSamples) => decide (2 ≤ b.first.toNat + b.second.toNat + b.third.toNat)
    let mark := value c.mark
    let stopHigh := value c.stop
    let run := exec (.receiveCharacter c edgeAge) s
    let hunting : State := { s with link := { s.link with
      receiver := .hunt, buffer := [], bufferNoise := false, bufferOwn := false, ownSent := false } }
    let refused := if s.control.station = .starting then hunting
      else { hunting with counters := counted 10 s.counters }
    let stage := s.link.transmitter
    let spoils := mark = true ∨ stopHigh = false ∨ s.link.buffer.length = 100 ∨
      s.link.buffer.length = 2 ∧ 96 < data.toNat
    ((value c.start = true ∨ s.control.held = true) → run = .next s) ∧
    (value c.start = false → s.control.held = false →
      (own = true ↔ stage = .arbitrating ∨ stage = .sending ∨ stage = .breaking) →
      (∀ i : Fin 8, data.getMsbD i = value c.data[i]) →
      (noise = true ↔ ∃ b ∈ c.start :: c.mark :: c.stop :: c.data.toList,
        ¬ (b.first = b.second ∧ b.second = b.third)) →
      (s.link.receiver = .hunt → run = .next s) ∧
      (s.link.receiver = .ready → mark = true → stopHigh = true → run = .next { s with link := { s.link with
        receiver := .inFrame, buffer := [data], bufferStamp := s.localTime - BitVec.ofNat 32 edgeAge
        bufferNoise := noise, bufferOwn := own, ownSent := false } }) ∧
      (s.link.receiver = .ready → (mark = false ∨ stopHigh = false) →
        run = .next (if stage = .breaking then hunting else refused)) ∧
      (s.link.receiver = .inFrame → mark = false → stopHigh = true → s.link.buffer.length < 100 →
        (s.link.buffer.length = 2 → data.toNat ≤ 96) → run = .next { s with link := { s.link with
          buffer := s.link.buffer ++ [data], bufferNoise := s.link.bufferNoise || noise } }) ∧
      (s.link.receiver = .inFrame → spoils → s.link.bufferOwn = false → run = .next refused) ∧
      (s.link.receiver = .inFrame → spoils → s.link.bufferOwn = true →
        run = .next (if stage = .sending ∨ stage = .breaking then hunting else refused)))

/-- LINE_IDLE, or LINE_FAULT_END, at the end of a frame: one that fails a check is discarded and, outside STARTING, counted;
a good frame, of any kind, that another source has sent joins the receive queue with its timestamp outside STARTING, or is a
receive overrun when 8 frames stand there; one of the station's own nonzero number that it has not sent puts a RUNNING or
HALTED station in MUTE, and changes nothing more of a station in MUTE; one that it has sent whole is dropped, and so is any
good frame in STARTING (R159, R177 to R180, R186, R189). -/
def Obligations.GoodFrameTaken : Prop :=
  ∀ (s : State) (run : Host.Outcome State Fault Refusal), s.control.held = false → s.link.receiver = .inFrame →
    (s.link.monitor = .busy ∧ run = exec .lineIdle s ∨
      s.link.monitor = .lineFault ∧ run = exec .lineFaultEnd s) →
    let idle := { s.link with
      monitor := .idle, receiver := .ready, buffer := [], bufferNoise := false, bufferOwn := false, ownSent := false }
    (checkFrame s.link.buffer = none → run = .next { s with
      link := idle
      counters := if s.control.station = .starting then s.counters else counted 10 s.counters }) ∧
    ∀ k source payload, checkFrame s.link.buffer = some (k, source, payload) →
      let frame : RxFrame := { kind := k, source := source, payload := payload, stamp := s.link.bufferStamp }
      let foreign := s.link.ownSent = false ∧ s.control.station ≠ .starting ∧
        (source ≠ s.control.number ∨ source = 0)
      let clash := s.link.ownSent = false ∧ source = s.control.number ∧ source ≠ 0
      ((s.link.ownSent = true ∨ s.control.station = .starting) → run = .next { s with link := idle }) ∧
      (foreign → s.link.receiveQueue.length < 8 → run = .next { s with
        link := { idle with receiveQueue := s.link.receiveQueue ++ [frame] } }) ∧
      (foreign → s.link.receiveQueue.length = 8 → run = .next { s with
        link := idle, counters := counted 11 s.counters }) ∧
      (∀ o, clash → (s.control.station = .running ∧ o = Origin.fromRunning ∨
          s.control.station = .halted ∧ o = Origin.fromHalted) →
        run = .next { s with
          control := { s.control with station := .mute o }
          link := { idle with transmitter := .mute, transmitQueue := [], driven := [] } }) ∧
      (∀ o, clash → s.control.station = .mute o → run = .next { s with link := idle })

/-- The life of an attempt up to arbitration. TRANSMIT_ATTEMPT removes and counts every HALF-AXLE or TRANSFER at the head of
the queue whose age would exceed 65535, and takes the next head at the same instant: it forms that frame's characters from this
start bit, mark 1 on the header and mark 0 after it, each driven as a dominant start bit, its data bits most significant first,
its mark and a recessive stop bit, and enters ARBITRATING; where all the frames have aged, the queue is empty and the
transmitter IDLE. A frame that the buffer holds when an attempt begins is not that attempt's, and a loss leaves the receiver
reading another node's frame (notes/assumptions/14), the frame under attempt, wherever it stands in the queue, keeping its
place and its count, and the station driving nothing more; a win enters SENDING, and the frame's bits go on (R93, R173, R175,
R177, R182, R183, R187).
That an attempt may begin at any instant of an idle line is the model's reading (notes/assumptions/17). -/
def Obligations.AttemptArbitrates : Prop :=
  ∀ (s : State) (head : TxFrame) (before after : List TxFrame), s.link.transmitQueue = before ++ head :: after →
    (∀ f ∈ before ++ after, f.attempted = false) →
    let aged := fun (f : TxFrame) => ∃ t, f.body.event = some t ∧ (s.localTime - t).toInt > 65535
    let dropped := fun (n : Nat) =>
      if n = 0 then s.counters else s.counters.set 12 (min 65535 (s.counters[12] + n))
    (∀ onEdge, s.link.transmitter = .waitIdle →
      (s.link.monitor = .idle ∨ onEdge = true ∧ s.link.monitor = .busy) →
      (∀ header bytes, (∀ f ∈ before, aged f) → ¬ aged head →
        frameBytes s.control.number head.body s.localTime = header :: bytes →
        ∃ t : State, exec (.transmitAttempt onEdge) s = .next t ∧ t = { s with
          counters := dropped before.length
          link := { s.link with
            transmitQueue := { head with attempted := true } :: after, transmitter := .arbitrating
            driven := { mark := true, data := header } :: bytes.map (fun b => { mark := false, data := b })
            attemptTime := s.localTime, bufferOwn := false } } ∧
          t.drivenBits = (t.link.driven.map (fun c => [false, c.data.getMsbD 0, c.data.getMsbD 1,
            c.data.getMsbD 2, c.data.getMsbD 3, c.data.getMsbD 4, c.data.getMsbD 5, c.data.getMsbD 6,
            c.data.getMsbD 7, c.mark, true])).flatten) ∧
      ((∀ f ∈ before ++ head :: after, aged f) → exec (.transmitAttempt onEdge) s = .next { s with
        counters := dropped (before.length + 1 + after.length)
        link := { s.link with transmitQueue := [], transmitter := .idle } })) ∧
    (s.link.transmitter = .waitIdle → s.link.monitor = .lineFault →
      ∀ onEdge, exec (.transmitAttempt onEdge) s = .next s) ∧
    (s.link.transmitter = .arbitrating → ∃ t : State, exec .arbitrationLoss s = .next t ∧ t = { s with
      link := { s.link with
        transmitQueue := before ++ { head with attempted := false } :: after, transmitter := .waitIdle, driven := []
        bufferOwn := false } } ∧ t.drivenBits = []) ∧
    (s.link.transmitter = .arbitrating → ∃ t : State, exec .arbitrationWon s = .next t ∧ t = { s with
      link := { s.link with transmitter := .sending } } ∧ t.drivenBits = s.drivenBits)

/-- The end of an attempt, wherever its frame stands in the queue: a bit error in ARBITRATING or SENDING is counted and begins
a break, in which the station drives 16 dominant bits in place of the frame's, or on the fourth in a row puts a RUNNING or a
HALTED station in MUTE with an empty queue and no break; the break's end releases the line and leaves the frame in its place
with one more error, or drops and counts it at its third; a frame sent whole leaves the queue, is
the station's own where the buffer holds it, returns the consecutive count to 0 unless its read-back was noisy, and empties the
reset cause set when it was an ANNOUNCE (R163, R168, R180, R184 to R187). The instant of the frame's own count, the frame that
the buffer holds and the source of the noise mark are the model's reading (notes/assumptions/13, 14, 15). -/
def Obligations.AttemptEnds : Prop :=
  ∀ (s : State) (head : TxFrame) (before after : List TxFrame), s.link.transmitQueue = before ++ head :: after →
    head.attempted = true → (∀ f ∈ before ++ after, f.attempted = false ∧ f.errors ≤ 2) → head.errors ≤ 2 →
    let rest := before ++ after
    let resting := fun (q : List TxFrame) => if q = [] then Transmitter.idle else .waitIdle
    let driving := s.link.transmitter = .arbitrating ∨ s.link.transmitter = .sending
    let released := fun (t : State) => t.drivenBits = []
    (driving → s.link.consecutiveErrors < 3 → ∃ t : State, exec .bitError s = .next t ∧ t = { s with
        counters := counted 13 s.counters
        link := { s.link with
          consecutiveErrors := s.link.consecutiveErrors + 1, transmitter := .breaking, driven := [] } } ∧
      t.drivenBits = List.replicate 16 false) ∧
    (∀ origin, driving → s.link.consecutiveErrors = 3 →
      (s.control.station = .running ∧ origin = Origin.fromRunning ∨
        s.control.station = .halted ∧ origin = Origin.fromHalted) →
      ∃ t : State, exec .bitError s = .next t ∧ released t ∧ t = { s with
        counters := counted 13 s.counters
        control := { s.control with station := .mute origin }
        link := { s.link with
          consecutiveErrors := 4, transmitter := .mute, transmitQueue := [], driven := [] } }) ∧
    (s.link.transmitter = .breaking → head.errors < 2 →
      ∃ t : State, exec .breakingEnd s = .next t ∧ released t ∧ t = { s with link := { s.link with
        transmitQueue := before ++ { head with errors := head.errors + 1, attempted := false } :: after
        transmitter := .waitIdle, driven := [] } }) ∧
    (s.link.transmitter = .breaking → head.errors = 2 →
      ∃ t : State, exec .breakingEnd s = .next t ∧ released t ∧ t = { s with
        counters := counted 12 s.counters
        link := { s.link with transmitQueue := rest, transmitter := resting rest, driven := [] } }) ∧
    (∀ noise, s.link.transmitter = .sending →
      ∃ t : State, exec (.frameSentWhole noise) s = .next t ∧ released t ∧ t = { s with
        control := { s.control with
          causes := if head.body.kind = .announce then ⟨false, false, false⟩ else s.control.causes }
        link := { s.link with
          transmitQueue := rest, transmitter := resting rest, driven := [], ownSent := s.link.bufferOwn
          consecutiveErrors := if noise = true ∨ s.link.bufferOwn = true ∧ s.link.bufferNoise = true
            then s.link.consecutiveErrors else 0 } })

/-- The transmit queue takes a new frame: with room it enters after every frame of its class or of a higher one and before
every frame of a lower one; in a full queue it displaces the newest frame of the lowest class below its own that is not
under attempt, and otherwise is dropped, either drop being counted; a new TEMPERATURE, STATUS or ANNOUNCE takes the
place of the queued one of its kind, or is dropped and counted when that one is under attempt (R187, R188). The station's
queue becomes so, an IDLE transmitter waits for idle, and a drop adds 1 to the transmit drops (R182, R188); a block's frame
is queued in RUNNING and HALTED alone (R163, R186). -/
def Obligations.TransmitQueueTakesFrame : Prop :=
  (∀ (b : Body) (s : State),
    let r := queueTake b s.link.transmitQueue
    s.enqueue b = { s with
      link := { s.link with
        transmitQueue := r.1
        transmitter := if s.link.transmitter = .idle then .waitIdle else s.link.transmitter }
      counters := if r.2 = true then counted 12 s.counters else s.counters } ∧
    ((s.control.station = .running ∨ s.control.station = .halted) → s.produce b = s.enqueue b) ∧
    ((s.control.station = .starting ∨ ∃ o, s.control.station = .mute o) → s.produce b = s)) ∧
  ∀ (b : Body) (q : List TxFrame), q.Pairwise (fun f g => f.body.kind.priority ≤ g.body.kind.priority) →
    let new : TxFrame := { body := b, errors := 0, attempted := false }
    let cls := fun (f : TxFrame) => f.body.kind.priority
    let single := b.kind = .announce ∨ b.kind = .status ∨ b.kind = .temperature
    let absent := single → ∀ f ∈ q, f.body.kind ≠ b.kind
    (∀ before after, q = before ++ after → (∀ f ∈ before, cls f ≤ cls new) → (∀ f ∈ after, cls new < cls f) →
      q.length < 12 → absent → queueTake b q = (before ++ new :: after, false)) ∧
    (∀ before victim after, q = before ++ victim :: after → q.length = 12 → absent →
      victim.attempted = false → cls new < cls victim → (∀ f ∈ after, f.attempted = true ∨ cls f < cls victim) →
      (∀ f ∈ before, f.attempted = true ∨ cls f ≤ cls victim) →
      ∃ front back, before ++ after = front ++ back ∧ (∀ f ∈ front, cls f ≤ cls new) ∧
        (∀ f ∈ back, cls new < cls f) ∧ queueTake b q = (front ++ new :: back, true)) ∧
    (q.length = 12 → absent → (∀ f ∈ q, f.attempted = true ∨ cls f ≤ cls new) → queueTake b q = (q, true)) ∧
    (∀ f, single → f ∈ q → f.body.kind = b.kind → (∀ g ∈ q, g.body.kind = b.kind → g = f) →
      (f.attempted = true → queueTake b q = (q, true)) ∧
      (f.attempted = false → ∃ front back,
        q.filter (fun g => g.body.kind != b.kind) = front ++ back ∧ (∀ g ∈ front, cls g ≤ cls new) ∧
        (∀ g ∈ back, cls new < cls g) ∧ queueTake b q = (front ++ new :: back, false)))
end

