-- ==== Sys2Proof/Laws/State.lean ====
section
/-! SUPPORT. What each update of the state does to each field of it: one lemma per field per update, so that no proof
unfolds a record update. Each is true by unfolding. -/
namespace Sys2Proof.Machine.Laws
open Sys2Proof.Machine.Safety

variable (s : State)

/-! ## bumpBy -/

@[simp] theorem bumpBy_localTime (c : Counter) (n : Nat) : (s.bumpBy c n).localTime = s.localTime := rfl
@[simp] theorem bumpBy_control (c : Counter) (n : Nat) : (s.bumpBy c n).control = s.control := rfl
@[simp] theorem bumpBy_counters (c : Counter) (n : Nat) :
    (s.bumpBy c n).counters = s.counters.set c.place.val (min Config.counterMax (s.counter c + n)) c.place.isLt := rfl
@[simp] theorem bumpBy_channels (c : Counter) (n : Nat) : (s.bumpBy c n).channels = s.channels := rfl
@[simp] theorem bumpBy_pairs (c : Counter) (n : Nat) : (s.bumpBy c n).pairs = s.pairs := rfl
@[simp] theorem bumpBy_assembler (c : Counter) (n : Nat) : (s.bumpBy c n).assembler = s.assembler := rfl
@[simp] theorem bumpBy_boundary (c : Counter) (n : Nat) : (s.bumpBy c n).boundary = s.boundary := rfl
@[simp] theorem bumpBy_temp (c : Counter) (n : Nat) : (s.bumpBy c n).temp = s.temp := rfl
@[simp] theorem bumpBy_drift (c : Counter) (n : Nat) : (s.bumpBy c n).drift = s.drift := rfl
@[simp] theorem bumpBy_output (c : Counter) (n : Nat) : (s.bumpBy c n).output = s.output := rfl
@[simp] theorem bumpBy_link (c : Counter) (n : Nat) : (s.bumpBy c n).link = s.link := rfl
@[simp] theorem bumpBy_freeCount (c : Counter) (n : Nat) : (s.bumpBy c n).freeCount = s.freeCount := rfl
@[simp] theorem bumpBy_pending (c : Counter) (n : Nat) : (s.bumpBy c n).pending = s.pending := rfl

/-! ## bump -/

@[simp] theorem bump_localTime (c : Counter) : (s.bump c).localTime = s.localTime := rfl
@[simp] theorem bump_control (c : Counter) : (s.bump c).control = s.control := rfl
@[simp] theorem bump_counters (c : Counter) : (s.bump c).counters = counted c.place s.counters := rfl
@[simp] theorem bump_channels (c : Counter) : (s.bump c).channels = s.channels := rfl
@[simp] theorem bump_pairs (c : Counter) : (s.bump c).pairs = s.pairs := rfl
@[simp] theorem bump_assembler (c : Counter) : (s.bump c).assembler = s.assembler := rfl
@[simp] theorem bump_boundary (c : Counter) : (s.bump c).boundary = s.boundary := rfl
@[simp] theorem bump_temp (c : Counter) : (s.bump c).temp = s.temp := rfl
@[simp] theorem bump_drift (c : Counter) : (s.bump c).drift = s.drift := rfl
@[simp] theorem bump_output (c : Counter) : (s.bump c).output = s.output := rfl
@[simp] theorem bump_link (c : Counter) : (s.bump c).link = s.link := rfl
@[simp] theorem bump_freeCount (c : Counter) : (s.bump c).freeCount = s.freeCount := rfl
@[simp] theorem bump_pending (c : Counter) : (s.bump c).pending = s.pending := rfl

/-! ## drawn -/

@[simp] theorem drawn_localTime : (s.drawn).localTime = s.localTime := rfl
@[simp] theorem drawn_control : (s.drawn).control = s.control := rfl
@[simp] theorem drawn_counters : (s.drawn).counters = s.counters := rfl
@[simp] theorem drawn_channels : (s.drawn).channels = s.channels := rfl
@[simp] theorem drawn_pairs : (s.drawn).pairs = s.pairs := rfl
@[simp] theorem drawn_assembler : (s.drawn).assembler = s.assembler := rfl
@[simp] theorem drawn_boundary : (s.drawn).boundary = s.boundary := rfl
@[simp] theorem drawn_temp : (s.drawn).temp = s.temp := rfl
@[simp] theorem drawn_drift : (s.drawn).drift = s.drift := rfl
@[simp] theorem drawn_output : (s.drawn).output = s.output := rfl
@[simp] theorem drawn_link : (s.drawn).link = s.link := rfl
@[simp] theorem drawn_freeCount : (s.drawn).freeCount = s.freeCount + 1 := rfl
@[simp] theorem drawn_pending : (s.drawn).pending = s.pending := rfl

/-! ## dispatched -/

@[simp] theorem dispatched_localTime : (s.dispatched).localTime = s.localTime := rfl
@[simp] theorem dispatched_control : (s.dispatched).control = s.control := rfl
@[simp] theorem dispatched_counters : (s.dispatched).counters = s.counters := rfl
@[simp] theorem dispatched_channels : (s.dispatched).channels = s.channels := rfl
@[simp] theorem dispatched_pairs : (s.dispatched).pairs = s.pairs := rfl
@[simp] theorem dispatched_assembler : (s.dispatched).assembler = s.assembler := rfl
@[simp] theorem dispatched_boundary : (s.dispatched).boundary = s.boundary := rfl
@[simp] theorem dispatched_temp : (s.dispatched).temp = s.temp := rfl
@[simp] theorem dispatched_drift : (s.dispatched).drift = s.drift := rfl
@[simp] theorem dispatched_output : (s.dispatched).output = s.output := rfl
@[simp] theorem dispatched_link : (s.dispatched).link = withoutHead s.link := rfl
@[simp] theorem dispatched_freeCount : (s.dispatched).freeCount = s.freeCount := rfl
@[simp] theorem dispatched_pending : (s.dispatched).pending = s.pending := rfl

/-! ## setLists -/

@[simp] theorem setLists_localTime (h : Half) (l : HalfLists) : (s.setLists h l).localTime = s.localTime := rfl
@[simp] theorem setLists_control (h : Half) (l : HalfLists) : (s.setLists h l).control = s.control := rfl
@[simp] theorem setLists_counters (h : Half) (l : HalfLists) : (s.setLists h l).counters = s.counters := rfl
@[simp] theorem setLists_channels (h : Half) (l : HalfLists) : (s.setLists h l).channels = s.channels := rfl
@[simp] theorem setLists_pairs (h : Half) (l : HalfLists) : (s.setLists h l).pairs = s.pairs.set h l := rfl
@[simp] theorem setLists_assembler (h : Half) (l : HalfLists) : (s.setLists h l).assembler = s.assembler := rfl
@[simp] theorem setLists_boundary (h : Half) (l : HalfLists) : (s.setLists h l).boundary = s.boundary := rfl
@[simp] theorem setLists_temp (h : Half) (l : HalfLists) : (s.setLists h l).temp = s.temp := rfl
@[simp] theorem setLists_drift (h : Half) (l : HalfLists) : (s.setLists h l).drift = s.drift := rfl
@[simp] theorem setLists_output (h : Half) (l : HalfLists) : (s.setLists h l).output = s.output := rfl
@[simp] theorem setLists_link (h : Half) (l : HalfLists) : (s.setLists h l).link = s.link := rfl
@[simp] theorem setLists_freeCount (h : Half) (l : HalfLists) : (s.setLists h l).freeCount = s.freeCount := rfl
@[simp] theorem setLists_pending (h : Half) (l : HalfLists) : (s.setLists h l).pending = s.pending := rfl

/-! ## setHalfSlot -/

@[simp] theorem setHalfSlot_localTime (h : Half) (x : Option HalfAxle) :
    (s.setHalfSlot h x).localTime = s.localTime := rfl
@[simp] theorem setHalfSlot_control (h : Half) (x : Option HalfAxle) : (s.setHalfSlot h x).control = s.control := rfl
@[simp] theorem setHalfSlot_counters (h : Half) (x : Option HalfAxle) :
    (s.setHalfSlot h x).counters = s.counters := rfl
@[simp] theorem setHalfSlot_channels (h : Half) (x : Option HalfAxle) :
    (s.setHalfSlot h x).channels = s.channels := rfl
@[simp] theorem setHalfSlot_pairs (h : Half) (x : Option HalfAxle) :
    (s.setHalfSlot h x).pairs = s.pairs.set h { s.pairs.get h with slot := x } := rfl
@[simp] theorem setHalfSlot_assembler (h : Half) (x : Option HalfAxle) :
    (s.setHalfSlot h x).assembler = s.assembler := rfl
@[simp] theorem setHalfSlot_boundary (h : Half) (x : Option HalfAxle) :
    (s.setHalfSlot h x).boundary = s.boundary := rfl
@[simp] theorem setHalfSlot_temp (h : Half) (x : Option HalfAxle) : (s.setHalfSlot h x).temp = s.temp := rfl
@[simp] theorem setHalfSlot_drift (h : Half) (x : Option HalfAxle) : (s.setHalfSlot h x).drift = s.drift := rfl
@[simp] theorem setHalfSlot_output (h : Half) (x : Option HalfAxle) : (s.setHalfSlot h x).output = s.output := rfl
@[simp] theorem setHalfSlot_link (h : Half) (x : Option HalfAxle) : (s.setHalfSlot h x).link = s.link := rfl
@[simp] theorem setHalfSlot_freeCount (h : Half) (x : Option HalfAxle) :
    (s.setHalfSlot h x).freeCount = s.freeCount := rfl
@[simp] theorem setHalfSlot_pending (h : Half) (x : Option HalfAxle) : (s.setHalfSlot h x).pending = s.pending := rfl

/-! ## setRemote -/

@[simp] theorem setRemote_localTime (h : Half) (l : List RemoteNotice) :
    (s.setRemote h l).localTime = s.localTime := rfl
@[simp] theorem setRemote_control (h : Half) (l : List RemoteNotice) : (s.setRemote h l).control = s.control := rfl
@[simp] theorem setRemote_counters (h : Half) (l : List RemoteNotice) : (s.setRemote h l).counters = s.counters := rfl
@[simp] theorem setRemote_channels (h : Half) (l : List RemoteNotice) : (s.setRemote h l).channels = s.channels := rfl
@[simp] theorem setRemote_pairs (h : Half) (l : List RemoteNotice) : (s.setRemote h l).pairs = s.pairs := rfl
@[simp] theorem setRemote_assembler (h : Half) (l : List RemoteNotice) :
    (s.setRemote h l).assembler = s.assembler := rfl
@[simp] theorem setRemote_boundary (h : Half) (l : List RemoteNotice) :
    (s.setRemote h l).boundary = { s.boundary with remote := s.boundary.remote.set h l } := rfl
@[simp] theorem setRemote_temp (h : Half) (l : List RemoteNotice) : (s.setRemote h l).temp = s.temp := rfl
@[simp] theorem setRemote_drift (h : Half) (l : List RemoteNotice) : (s.setRemote h l).drift = s.drift := rfl
@[simp] theorem setRemote_output (h : Half) (l : List RemoteNotice) : (s.setRemote h l).output = s.output := rfl
@[simp] theorem setRemote_link (h : Half) (l : List RemoteNotice) : (s.setRemote h l).link = s.link := rfl
@[simp] theorem setRemote_freeCount (h : Half) (l : List RemoteNotice) :
    (s.setRemote h l).freeCount = s.freeCount := rfl
@[simp] theorem setRemote_pending (h : Half) (l : List RemoteNotice) : (s.setRemote h l).pending = s.pending := rfl

/-! ## dropEdge -/

@[simp] theorem dropEdge_localTime (number tag : Nat) : (s.dropEdge number tag).localTime = s.localTime := rfl
@[simp] theorem dropEdge_control (number tag : Nat) : (s.dropEdge number tag).control = s.control := rfl
@[simp] theorem dropEdge_counters (number tag : Nat) : (s.dropEdge number tag).counters = s.counters := rfl
@[simp] theorem dropEdge_channels (number tag : Nat) : (s.dropEdge number tag).channels = s.channels := rfl
@[simp] theorem dropEdge_pairs (number tag : Nat) : (s.dropEdge number tag).pairs = s.pairs := rfl
@[simp] theorem dropEdge_assembler (number tag : Nat) : (s.dropEdge number tag).assembler = s.assembler := rfl
@[simp] theorem dropEdge_boundary (number tag : Nat) :
    (s.dropEdge number tag).boundary = { s.boundary with
      edges := s.boundary.edges.filter (fun e => !(e.vehicle == number && e.tag == tag)) } := rfl
@[simp] theorem dropEdge_temp (number tag : Nat) : (s.dropEdge number tag).temp = s.temp := rfl
@[simp] theorem dropEdge_drift (number tag : Nat) : (s.dropEdge number tag).drift = s.drift := rfl
@[simp] theorem dropEdge_output (number tag : Nat) : (s.dropEdge number tag).output = s.output := rfl
@[simp] theorem dropEdge_link (number tag : Nat) : (s.dropEdge number tag).link = s.link := rfl
@[simp] theorem dropEdge_freeCount (number tag : Nat) : (s.dropEdge number tag).freeCount = s.freeCount := rfl
@[simp] theorem dropEdge_pending (number tag : Nat) : (s.dropEdge number tag).pending = s.pending := rfl

/-! ## flagOpen -/

@[simp] theorem flagOpen_localTime (f : Flags → Flags) : (s.flagOpen f).localTime = s.localTime := rfl
@[simp] theorem flagOpen_control (f : Flags → Flags) : (s.flagOpen f).control = s.control := rfl
@[simp] theorem flagOpen_counters (f : Flags → Flags) : (s.flagOpen f).counters = s.counters := rfl
@[simp] theorem flagOpen_channels (f : Flags → Flags) : (s.flagOpen f).channels = s.channels := rfl
@[simp] theorem flagOpen_pairs (f : Flags → Flags) : (s.flagOpen f).pairs = s.pairs := rfl
@[simp] theorem flagOpen_assembler (f : Flags → Flags) :
    (s.flagOpen f).assembler = { s.assembler with
      openVehicle := s.assembler.openVehicle.map (fun v => { v with flags := f v.flags }) } := rfl
@[simp] theorem flagOpen_boundary (f : Flags → Flags) : (s.flagOpen f).boundary = s.boundary := rfl
@[simp] theorem flagOpen_temp (f : Flags → Flags) : (s.flagOpen f).temp = s.temp := rfl
@[simp] theorem flagOpen_drift (f : Flags → Flags) : (s.flagOpen f).drift = s.drift := rfl
@[simp] theorem flagOpen_output (f : Flags → Flags) : (s.flagOpen f).output = s.output := rfl
@[simp] theorem flagOpen_link (f : Flags → Flags) : (s.flagOpen f).link = s.link := rfl
@[simp] theorem flagOpen_freeCount (f : Flags → Flags) : (s.flagOpen f).freeCount = s.freeCount := rfl
@[simp] theorem flagOpen_pending (f : Flags → Flags) : (s.flagOpen f).pending = s.pending := rfl

/-! ## takeVerdict -/

@[simp] theorem takeVerdict_localTime (v : Verdict) : (s.takeVerdict v).localTime = s.localTime := rfl
@[simp] theorem takeVerdict_control (v : Verdict) : (s.takeVerdict v).control = s.control := rfl
@[simp] theorem takeVerdict_counters (v : Verdict) : (s.takeVerdict v).counters = s.counters := rfl
@[simp] theorem takeVerdict_channels (v : Verdict) : (s.takeVerdict v).channels = s.channels := rfl
@[simp] theorem takeVerdict_pairs (v : Verdict) : (s.takeVerdict v).pairs = s.pairs := rfl
@[simp] theorem takeVerdict_assembler (v : Verdict) : (s.takeVerdict v).assembler = s.assembler := rfl
@[simp] theorem takeVerdict_boundary (v : Verdict) : (s.takeVerdict v).boundary = s.boundary := rfl
@[simp] theorem takeVerdict_temp (v : Verdict) : (s.takeVerdict v).temp = s.temp := rfl
@[simp] theorem takeVerdict_drift (v : Verdict) : (s.takeVerdict v).drift = s.drift := rfl
@[simp] theorem takeVerdict_output (v : Verdict) :
    (s.takeVerdict v).output = { s.output with
      overload := State.overloadAfter s.control.params.overloadMode v s.output.overload } := rfl
@[simp] theorem takeVerdict_link (v : Verdict) : (s.takeVerdict v).link = s.link := rfl
@[simp] theorem takeVerdict_freeCount (v : Verdict) : (s.takeVerdict v).freeCount = s.freeCount := rfl
@[simp] theorem takeVerdict_pending (v : Verdict) : (s.takeVerdict v).pending = s.pending := rfl

/-! ## startPulse -/

@[simp] theorem startPulse_localTime : (s.startPulse).localTime = s.localTime := rfl
@[simp] theorem startPulse_control : (s.startPulse).control = s.control := rfl
@[simp] theorem startPulse_counters : (s.startPulse).counters = s.counters := rfl
@[simp] theorem startPulse_channels : (s.startPulse).channels = s.channels := rfl
@[simp] theorem startPulse_pairs : (s.startPulse).pairs = s.pairs := rfl
@[simp] theorem startPulse_assembler : (s.startPulse).assembler = s.assembler := rfl
@[simp] theorem startPulse_boundary : (s.startPulse).boundary = s.boundary := rfl
@[simp] theorem startPulse_temp : (s.startPulse).temp = s.temp := rfl
@[simp] theorem startPulse_drift : (s.startPulse).drift = s.drift := rfl
@[simp] theorem startPulse_output :
    (s.startPulse).output = { s.output with
      triggers := s.output.triggers.tail, camera := .pulse,
      cameraEnd := some (later s.localTime s.control.params.pulseTicks) } := rfl
@[simp] theorem startPulse_link : (s.startPulse).link = s.link := rfl
@[simp] theorem startPulse_freeCount : (s.startPulse).freeCount = s.freeCount := rfl
@[simp] theorem startPulse_pending : (s.startPulse).pending = s.pending := rfl

/-! ## endPulse -/

@[simp] theorem endPulse_localTime : (s.endPulse).localTime = s.localTime := rfl
@[simp] theorem endPulse_control : (s.endPulse).control = s.control := rfl
@[simp] theorem endPulse_counters : (s.endPulse).counters = s.counters := rfl
@[simp] theorem endPulse_channels : (s.endPulse).channels = s.channels := rfl
@[simp] theorem endPulse_pairs : (s.endPulse).pairs = s.pairs := rfl
@[simp] theorem endPulse_assembler : (s.endPulse).assembler = s.assembler := rfl
@[simp] theorem endPulse_boundary : (s.endPulse).boundary = s.boundary := rfl
@[simp] theorem endPulse_temp : (s.endPulse).temp = s.temp := rfl
@[simp] theorem endPulse_drift : (s.endPulse).drift = s.drift := rfl
@[simp] theorem endPulse_output :
    (s.endPulse).output = { s.output with
      camera := .gap, cameraEnd := s.output.cameraEnd.map (fun t => later t s.control.params.gapTicks) } := rfl
@[simp] theorem endPulse_link : (s.endPulse).link = s.link := rfl
@[simp] theorem endPulse_freeCount : (s.endPulse).freeCount = s.freeCount := rfl
@[simp] theorem endPulse_pending : (s.endPulse).pending = s.pending := rfl

/-! ## startStatus -/

@[simp] theorem startStatus_localTime : (s.startStatus).localTime = s.localTime := rfl
@[simp] theorem startStatus_control :
    (s.startStatus).control = { s.control with statusDue := some (later s.localTime s.statusTicks) } := rfl
@[simp] theorem startStatus_counters : (s.startStatus).counters = s.counters := rfl
@[simp] theorem startStatus_channels : (s.startStatus).channels = s.channels := rfl
@[simp] theorem startStatus_pairs : (s.startStatus).pairs = s.pairs := rfl
@[simp] theorem startStatus_assembler : (s.startStatus).assembler = s.assembler := rfl
@[simp] theorem startStatus_boundary : (s.startStatus).boundary = s.boundary := rfl
@[simp] theorem startStatus_temp : (s.startStatus).temp = s.temp := rfl
@[simp] theorem startStatus_drift : (s.startStatus).drift = s.drift := rfl
@[simp] theorem startStatus_output : (s.startStatus).output = s.output := rfl
@[simp] theorem startStatus_link : (s.startStatus).link = s.link := rfl
@[simp] theorem startStatus_freeCount : (s.startStatus).freeCount = s.freeCount := rfl
@[simp] theorem startStatus_pending : (s.startStatus).pending = s.pending := rfl

/-! ## hunt -/

@[simp] theorem hunt_localTime : (s.hunt).localTime = s.localTime := rfl
@[simp] theorem hunt_control : (s.hunt).control = s.control := rfl
@[simp] theorem hunt_counters : (s.hunt).counters = s.counters := rfl
@[simp] theorem hunt_channels : (s.hunt).channels = s.channels := rfl
@[simp] theorem hunt_pairs : (s.hunt).pairs = s.pairs := rfl
@[simp] theorem hunt_assembler : (s.hunt).assembler = s.assembler := rfl
@[simp] theorem hunt_boundary : (s.hunt).boundary = s.boundary := rfl
@[simp] theorem hunt_temp : (s.hunt).temp = s.temp := rfl
@[simp] theorem hunt_drift : (s.hunt).drift = s.drift := rfl
@[simp] theorem hunt_output : (s.hunt).output = s.output := rfl
@[simp] theorem hunt_link :
    (s.hunt).link = { s.link with
      receiver := .hunt, buffer := [], bufferNoise := false, bufferOwn := false, ownSent := false } := rfl
@[simp] theorem hunt_freeCount : (s.hunt).freeCount = s.freeCount := rfl
@[simp] theorem hunt_pending : (s.hunt).pending = s.pending := rfl

/-! ## readyReceiver -/

@[simp] theorem readyReceiver_localTime : (s.readyReceiver).localTime = s.localTime := rfl
@[simp] theorem readyReceiver_control : (s.readyReceiver).control = s.control := rfl
@[simp] theorem readyReceiver_counters : (s.readyReceiver).counters = s.counters := rfl
@[simp] theorem readyReceiver_channels : (s.readyReceiver).channels = s.channels := rfl
@[simp] theorem readyReceiver_pairs : (s.readyReceiver).pairs = s.pairs := rfl
@[simp] theorem readyReceiver_assembler : (s.readyReceiver).assembler = s.assembler := rfl
@[simp] theorem readyReceiver_boundary : (s.readyReceiver).boundary = s.boundary := rfl
@[simp] theorem readyReceiver_temp : (s.readyReceiver).temp = s.temp := rfl
@[simp] theorem readyReceiver_drift : (s.readyReceiver).drift = s.drift := rfl
@[simp] theorem readyReceiver_output : (s.readyReceiver).output = s.output := rfl
@[simp] theorem readyReceiver_link :
    (s.readyReceiver).link = { s.link with
      receiver := .ready, buffer := [], bufferNoise := false, bufferOwn := false, ownSent := false } := rfl
@[simp] theorem readyReceiver_freeCount : (s.readyReceiver).freeCount = s.freeCount := rfl
@[simp] theorem readyReceiver_pending : (s.readyReceiver).pending = s.pending := rfl

/-! ## startFrame -/

@[simp] theorem startFrame_localTime (data : Byte) (noise : Bool) (stamp : LocalTime) :
    (s.startFrame data noise stamp).localTime = s.localTime := rfl
@[simp] theorem startFrame_control (data : Byte) (noise : Bool) (stamp : LocalTime) :
    (s.startFrame data noise stamp).control = s.control := rfl
@[simp] theorem startFrame_counters (data : Byte) (noise : Bool) (stamp : LocalTime) :
    (s.startFrame data noise stamp).counters = s.counters := rfl
@[simp] theorem startFrame_channels (data : Byte) (noise : Bool) (stamp : LocalTime) :
    (s.startFrame data noise stamp).channels = s.channels := rfl
@[simp] theorem startFrame_pairs (data : Byte) (noise : Bool) (stamp : LocalTime) :
    (s.startFrame data noise stamp).pairs = s.pairs := rfl
@[simp] theorem startFrame_assembler (data : Byte) (noise : Bool) (stamp : LocalTime) :
    (s.startFrame data noise stamp).assembler = s.assembler := rfl
@[simp] theorem startFrame_boundary (data : Byte) (noise : Bool) (stamp : LocalTime) :
    (s.startFrame data noise stamp).boundary = s.boundary := rfl
@[simp] theorem startFrame_temp (data : Byte) (noise : Bool) (stamp : LocalTime) :
    (s.startFrame data noise stamp).temp = s.temp := rfl
@[simp] theorem startFrame_drift (data : Byte) (noise : Bool) (stamp : LocalTime) :
    (s.startFrame data noise stamp).drift = s.drift := rfl
@[simp] theorem startFrame_output (data : Byte) (noise : Bool) (stamp : LocalTime) :
    (s.startFrame data noise stamp).output = s.output := rfl
@[simp] theorem startFrame_link (data : Byte) (noise : Bool) (stamp : LocalTime) :
    (s.startFrame data noise stamp).link = { s.link with
      receiver := .inFrame, buffer := [data], bufferStamp := stamp, bufferNoise := noise, bufferOwn := s.ownAttempt,
      ownSent := false } := rfl
@[simp] theorem startFrame_freeCount (data : Byte) (noise : Bool) (stamp : LocalTime) :
    (s.startFrame data noise stamp).freeCount = s.freeCount := rfl
@[simp] theorem startFrame_pending (data : Byte) (noise : Bool) (stamp : LocalTime) :
    (s.startFrame data noise stamp).pending = s.pending := rfl

/-! ## joinBuffer -/

@[simp] theorem joinBuffer_localTime (data : Byte) (noise : Bool) :
    (s.joinBuffer data noise).localTime = s.localTime := rfl
@[simp] theorem joinBuffer_control (data : Byte) (noise : Bool) : (s.joinBuffer data noise).control = s.control := rfl
@[simp] theorem joinBuffer_counters (data : Byte) (noise : Bool) :
    (s.joinBuffer data noise).counters = s.counters := rfl
@[simp] theorem joinBuffer_channels (data : Byte) (noise : Bool) :
    (s.joinBuffer data noise).channels = s.channels := rfl
@[simp] theorem joinBuffer_pairs (data : Byte) (noise : Bool) : (s.joinBuffer data noise).pairs = s.pairs := rfl
@[simp] theorem joinBuffer_assembler (data : Byte) (noise : Bool) :
    (s.joinBuffer data noise).assembler = s.assembler := rfl
@[simp] theorem joinBuffer_boundary (data : Byte) (noise : Bool) :
    (s.joinBuffer data noise).boundary = s.boundary := rfl
@[simp] theorem joinBuffer_temp (data : Byte) (noise : Bool) : (s.joinBuffer data noise).temp = s.temp := rfl
@[simp] theorem joinBuffer_drift (data : Byte) (noise : Bool) : (s.joinBuffer data noise).drift = s.drift := rfl
@[simp] theorem joinBuffer_output (data : Byte) (noise : Bool) : (s.joinBuffer data noise).output = s.output := rfl
@[simp] theorem joinBuffer_link (data : Byte) (noise : Bool) :
    (s.joinBuffer data noise).link = { s.link with
      buffer := s.link.buffer ++ [data], bufferNoise := s.link.bufferNoise || noise } := rfl
@[simp] theorem joinBuffer_freeCount (data : Byte) (noise : Bool) :
    (s.joinBuffer data noise).freeCount = s.freeCount := rfl
@[simp] theorem joinBuffer_pending (data : Byte) (noise : Bool) : (s.joinBuffer data noise).pending = s.pending := rfl

/-! ## loseArbitration -/

@[simp] theorem loseArbitration_localTime : (s.loseArbitration).localTime = s.localTime := rfl
@[simp] theorem loseArbitration_control : (s.loseArbitration).control = s.control := rfl
@[simp] theorem loseArbitration_counters : (s.loseArbitration).counters = s.counters := rfl
@[simp] theorem loseArbitration_channels : (s.loseArbitration).channels = s.channels := rfl
@[simp] theorem loseArbitration_pairs : (s.loseArbitration).pairs = s.pairs := rfl
@[simp] theorem loseArbitration_assembler : (s.loseArbitration).assembler = s.assembler := rfl
@[simp] theorem loseArbitration_boundary : (s.loseArbitration).boundary = s.boundary := rfl
@[simp] theorem loseArbitration_temp : (s.loseArbitration).temp = s.temp := rfl
@[simp] theorem loseArbitration_drift : (s.loseArbitration).drift = s.drift := rfl
@[simp] theorem loseArbitration_output : (s.loseArbitration).output = s.output := rfl
@[simp] theorem loseArbitration_link :
    (s.loseArbitration).link = { s.link with
      transmitQueue := s.link.transmitQueue.map State.releaseAttempt,
      transmitter := State.restTransmitter (s.link.transmitQueue.map State.releaseAttempt), driven := [],
      bufferOwn := false } := rfl
@[simp] theorem loseArbitration_freeCount : (s.loseArbitration).freeCount = s.freeCount := rfl
@[simp] theorem loseArbitration_pending : (s.loseArbitration).pending = s.pending := rfl

/-! ## advance -/

@[simp] theorem advance_localTime :
    (s.advance).localTime = if s.control.held then s.localTime else later s.localTime 1 := by
  unfold State.advance
  split <;> rfl
@[simp] theorem advance_control :
    (s.advance).control = s.control := by
  unfold State.advance
  split <;> rfl
@[simp] theorem advance_counters :
    (s.advance).counters = s.counters := by
  unfold State.advance
  split <;> rfl
@[simp] theorem advance_channels :
    (s.advance).channels = s.channels := by
  unfold State.advance
  split <;> rfl
@[simp] theorem advance_pairs :
    (s.advance).pairs = s.pairs := by
  unfold State.advance
  split <;> rfl
@[simp] theorem advance_assembler :
    (s.advance).assembler = s.assembler := by
  unfold State.advance
  split <;> rfl
@[simp] theorem advance_boundary :
    (s.advance).boundary = s.boundary := by
  unfold State.advance
  split <;> rfl
@[simp] theorem advance_temp :
    (s.advance).temp = s.temp := by
  unfold State.advance
  split <;> rfl
@[simp] theorem advance_drift :
    (s.advance).drift = s.drift := by
  unfold State.advance
  split <;> rfl
@[simp] theorem advance_output :
    (s.advance).output = s.output := by
  unfold State.advance
  split <;> rfl
@[simp] theorem advance_link :
    (s.advance).link = s.link := by
  unfold State.advance
  split <;> rfl
@[simp] theorem advance_freeCount :
    (s.advance).freeCount = s.freeCount := by
  unfold State.advance
  split <;> rfl
@[simp] theorem advance_pending :
    (s.advance).pending = s.pending := by
  unfold State.advance
  split <;> rfl

/-! ## heldInReset -/

@[simp] theorem heldInReset_localTime : (s.heldInReset).localTime = 0 := rfl
@[simp] theorem heldInReset_control :
    (s.heldInReset).control = { State.reset.control with
      held := true, number := s.control.number, rate := s.control.rate, causes := s.control.causes } := rfl
@[simp] theorem heldInReset_counters : (s.heldInReset).counters = State.reset.counters := rfl
@[simp] theorem heldInReset_channels : (s.heldInReset).channels = State.reset.channels := rfl
@[simp] theorem heldInReset_pairs : (s.heldInReset).pairs = State.reset.pairs := rfl
@[simp] theorem heldInReset_assembler : (s.heldInReset).assembler = State.reset.assembler := rfl
@[simp] theorem heldInReset_boundary : (s.heldInReset).boundary = State.reset.boundary := rfl
@[simp] theorem heldInReset_temp : (s.heldInReset).temp = State.reset.temp := rfl
@[simp] theorem heldInReset_drift : (s.heldInReset).drift = { State.reset.drift with port := [] } := rfl
@[simp] theorem heldInReset_output : (s.heldInReset).output = State.reset.output := rfl
@[simp] theorem heldInReset_link : (s.heldInReset).link = State.reset.link := rfl
@[simp] theorem heldInReset_freeCount : (s.heldInReset).freeCount = s.freeCount := rfl
@[simp] theorem heldInReset_pending : (s.heldInReset).pending = s.pending := rfl

/-! ## setSlot, openSlot -/

@[simp] theorem setSlot_openSlot_localTime (v : Option Vehicle) :
    (s.setSlot .openSlot v).localTime = s.localTime := rfl
@[simp] theorem setSlot_openSlot_control (v : Option Vehicle) : (s.setSlot .openSlot v).control = s.control := rfl
@[simp] theorem setSlot_openSlot_counters (v : Option Vehicle) : (s.setSlot .openSlot v).counters = s.counters := rfl
@[simp] theorem setSlot_openSlot_channels (v : Option Vehicle) : (s.setSlot .openSlot v).channels = s.channels := rfl
@[simp] theorem setSlot_openSlot_pairs (v : Option Vehicle) : (s.setSlot .openSlot v).pairs = s.pairs := rfl
@[simp] theorem setSlot_openSlot_assembler (v : Option Vehicle) :
    (s.setSlot .openSlot v).assembler = { s.assembler with openVehicle := v } := rfl
@[simp] theorem setSlot_openSlot_boundary (v : Option Vehicle) : (s.setSlot .openSlot v).boundary = s.boundary := rfl
@[simp] theorem setSlot_openSlot_temp (v : Option Vehicle) : (s.setSlot .openSlot v).temp = s.temp := rfl
@[simp] theorem setSlot_openSlot_drift (v : Option Vehicle) : (s.setSlot .openSlot v).drift = s.drift := rfl
@[simp] theorem setSlot_openSlot_output (v : Option Vehicle) : (s.setSlot .openSlot v).output = s.output := rfl
@[simp] theorem setSlot_openSlot_link (v : Option Vehicle) : (s.setSlot .openSlot v).link = s.link := rfl
@[simp] theorem setSlot_openSlot_freeCount (v : Option Vehicle) :
    (s.setSlot .openSlot v).freeCount = s.freeCount := rfl
@[simp] theorem setSlot_openSlot_pending (v : Option Vehicle) : (s.setSlot .openSlot v).pending = s.pending := rfl
@[simp] theorem vehicleIn_openSlot : s.vehicleIn .openSlot = s.assembler.openVehicle := rfl

/-! ## setSlot, closingSlot -/

@[simp] theorem setSlot_closingSlot_localTime (v : Option Vehicle) :
    (s.setSlot .closingSlot v).localTime = s.localTime := rfl
@[simp] theorem setSlot_closingSlot_control (v : Option Vehicle) :
    (s.setSlot .closingSlot v).control = s.control := rfl
@[simp] theorem setSlot_closingSlot_counters (v : Option Vehicle) :
    (s.setSlot .closingSlot v).counters = s.counters := rfl
@[simp] theorem setSlot_closingSlot_channels (v : Option Vehicle) :
    (s.setSlot .closingSlot v).channels = s.channels := rfl
@[simp] theorem setSlot_closingSlot_pairs (v : Option Vehicle) : (s.setSlot .closingSlot v).pairs = s.pairs := rfl
@[simp] theorem setSlot_closingSlot_assembler (v : Option Vehicle) :
    (s.setSlot .closingSlot v).assembler = { s.assembler with closingVehicle := v } := rfl
@[simp] theorem setSlot_closingSlot_boundary (v : Option Vehicle) :
    (s.setSlot .closingSlot v).boundary = s.boundary := rfl
@[simp] theorem setSlot_closingSlot_temp (v : Option Vehicle) : (s.setSlot .closingSlot v).temp = s.temp := rfl
@[simp] theorem setSlot_closingSlot_drift (v : Option Vehicle) : (s.setSlot .closingSlot v).drift = s.drift := rfl
@[simp] theorem setSlot_closingSlot_output (v : Option Vehicle) : (s.setSlot .closingSlot v).output = s.output := rfl
@[simp] theorem setSlot_closingSlot_link (v : Option Vehicle) : (s.setSlot .closingSlot v).link = s.link := rfl
@[simp] theorem setSlot_closingSlot_freeCount (v : Option Vehicle) :
    (s.setSlot .closingSlot v).freeCount = s.freeCount := rfl
@[simp] theorem setSlot_closingSlot_pending (v : Option Vehicle) :
    (s.setSlot .closingSlot v).pending = s.pending := rfl
@[simp] theorem vehicleIn_closingSlot : s.vehicleIn .closingSlot = s.assembler.closingVehicle := rfl

/-! ## Reads through updates -/

/-- A counter reads one more, up to its limit, after it has added 1, and any other reads as before (R170). -/
theorem counter_bump (c d : Counter) :
    (s.bump c).counter d = if d = c then min Config.counterMax (s.counter c + 1) else s.counter d := by
  by_cases h : d = c
  · subst h; simp [State.counter, State.bump, State.bumpBy, Vector.get_eq_getElem]
  · have : c.place.val ≠ d.place.val := by
      cases c <;> cases d <;> first | exact absurd rfl h | decide
    simp [State.counter, State.bump, State.bumpBy, h, Vector.get_eq_getElem, Vector.getElem_set_ne, this]

/-- The collections of a half read as they were set, and those of the other half as before (R19). -/
theorem pairs_get_set (p : PerHalf HalfLists) (h g : Half) (l : HalfLists) :
    (p.set h l).get g = if g = h then l else p.get g := by
  cases h <;> cases g <;> rfl

/-- The remote list of a side reads as it was set, and the other side's as before (R96). -/
theorem remote_get_set (p : PerHalf (List RemoteNotice)) (h g : Half) (l : List RemoteNotice) :
    (p.set h l).get g = if g = h then l else p.get g := by
  cases h <;> cases g <;> rfl

end Sys2Proof.Machine.Laws
end

