-- ==== Sys2Proof/Laws/Queue.lean ====
section
/-! SUPPORT. What the transmit queue's operations can do (R187, R188): a new frame enters without loss, the frame
that makes room is one that is not under attempt, and the order, the single kinds and the frame under attempt stay. -/
namespace Sys2Proof.Machine.Laws
open Sys2Proof.Machine.Safety

/-- Entering the queue loses no frame. -/
theorem queueInsert_perm (f : TxFrame) (q : List TxFrame) : (queueInsert f q).Perm (f :: q) := by
  unfold queueInsert
  refine List.perm_middle.trans (List.Perm.cons f ?_)
  rw [List.takeWhile_append_dropWhile]

/-- A frame enters a queue ordered by class after its class and before every lower one. -/
theorem queueInsert_ordered (f : TxFrame) (q : List TxFrame)
    (h : q.Pairwise (fun a b => a.body.kind.priority ≤ b.body.kind.priority)) :
    (queueInsert f q).Pairwise (fun a b => a.body.kind.priority ≤ b.body.kind.priority) := by
  unfold queueInsert TxFrame.priority
  induction q with
  | nil => simp
  | cons g q ih =>
    rw [List.pairwise_cons] at h
    by_cases hg : g.body.kind.priority ≤ f.body.kind.priority
    · simp only [List.takeWhile_cons, List.dropWhile_cons, hg, decide_true, if_true, List.cons_append,
        List.pairwise_cons]
      refine ⟨fun a ha => ?_, ih h.2⟩
      rcases List.mem_append.1 ha with ha | ha
      · exact h.1 a ((List.takeWhile_sublist _).subset ha)
      · rcases List.mem_cons.1 ha with rfl | ha
        · exact hg
        · exact h.1 a ((List.dropWhile_sublist _).subset ha)
    · simp only [List.takeWhile_cons, List.dropWhile_cons, hg, decide_false, Bool.false_eq_true, if_false,
        List.nil_append, List.pairwise_cons]
      refine ⟨fun a ha => ?_, h⟩
      rcases List.mem_cons.1 ha with rfl | ha
      · omega
      · have := h.1 a ha; omega

/-- A number above which the maximum rises occurs among the numbers. -/
theorem foldl_max_mem (l : List Nat) (b n : Nat) (h : n < l.foldl max b) (hb : b ≤ n) : l.foldl max b ∈ l := by
  induction l generalizing b with
  | nil => simp at h; omega
  | cons a l ih =>
    simp only [List.foldl_cons] at h ⊢
    by_cases ha : max b a ≤ n
    · exact List.mem_cons_of_mem _ (ih _ h ha)
    · have hmono : ∀ (l : List Nat) (c : Nat), l.foldl max c = c ∨ l.foldl max c ∈ l := by
        intro l
        induction l with
        | nil => simp
        | cons d l ih2 =>
          intro c
          simp only [List.foldl_cons]
          rcases ih2 (max c d) with h1 | h1
          · rcases le_total c d with h2 | h2
            · right; rw [h1, max_eq_right h2]; simp
            · left; rw [h1, max_eq_left h2]
          · right; exact List.mem_cons_of_mem _ h1
      rcases hmono l (max b a) with h1 | h1
      · rw [h1, max_eq_right (by omega)]; simp
      · exact List.mem_cons_of_mem _ h1

/-- A queue in which a class above `n` waits holds a frame of its lowest class that is not under attempt. -/
theorem lowestClass_mem (q : List TxFrame) (n : Nat) (h : n < lowestClass q) :
    ∃ f ∈ q, f.attempted = false ∧ f.priority = lowestClass q := by
  have := foldl_max_mem _ 0 n h (Nat.zero_le n)
  obtain ⟨f, hf, he⟩ := List.mem_map.1 this
  obtain ⟨h1, h2⟩ := List.mem_filter.1 hf
  exact ⟨f, h1, by simpa using h2, he⟩

/-- Making room takes out one frame, which is not under attempt. -/
theorem dropNewest_perm (cls : Nat) (q : List TxFrame)
    (h : ∃ f ∈ q, f.attempted = false ∧ f.priority = cls) :
    (dropNewest cls q).Sublist q ∧ ∃ f : TxFrame, f.attempted = false ∧ f.priority = cls ∧
      q.Perm (f :: dropNewest cls q) := by
  unfold dropNewest
  obtain ⟨f, hf, h1, h2⟩ := h
  obtain ⟨a, l1, l2, -, ha, e1, e2⟩ := List.exists_of_eraseP
    (p := fun f : TxFrame => !f.attempted && f.priority == cls) (List.mem_reverse.2 hf) (by simp [h1, h2])
  have hq : q = l2.reverse ++ a :: l1.reverse := by
    rw [← List.reverse_reverse q, e1]; simp
  refine ⟨?_, a, by simpa using (Bool.and_eq_true_iff.1 ha).1, by simpa using (Bool.and_eq_true_iff.1 ha).2, ?_⟩
  · rw [e2, hq, List.reverse_append]
    exact List.Sublist.append (List.Sublist.refl _) (List.sublist_cons_self _ _)
  · rw [e2, hq, List.reverse_append]
    exact List.perm_middle

/-- At most one queued frame of each single-instance kind (R187). -/
def SingleKinds (q : List TxFrame) : Prop :=
  ∀ k, k = Kind.announce ∨ k = Kind.status ∨ k = Kind.temperature →
    (q.filter (fun f => f.body.kind == k)).length ≤ 1

/-- What a queue becomes that takes a new frame: it stays, the frame dropped; or the frame enters a part of it, which
has room, holds no frame of a single kind of the new one, and keeps every frame under attempt. -/
theorem queueTake_cases (b : Body) (q : List TxFrame) :
    (queueTake b q = (q, true) ∧ q ≠ []) ∨
      ∃ kept d, queueTake b q = (queueInsert { body := b, errors := 0, attempted := false } kept, d) ∧
        kept.Sublist q ∧ (q.length ≤ 12 → kept.length < 12) ∧
        (SingleKinds q → (kept.filter TxFrame.attempted).length = (q.filter TxFrame.attempted).length) ∧
        (b.kind.single = true → ∀ f ∈ kept, f.body.kind ≠ b.kind) := by
  have enter : (b.kind.single = true → ∀ f ∈ q, f.body.kind ≠ b.kind) →
      (queueEnter { body := b, errors := 0, attempted := false } q = (q, true) ∧ q ≠ []) ∨
      ∃ kept d, queueEnter { body := b, errors := 0, attempted := false } q =
          (queueInsert { body := b, errors := 0, attempted := false } kept, d) ∧
        kept.Sublist q ∧ (q.length ≤ 12 → kept.length < 12) ∧
        (SingleKinds q → (kept.filter TxFrame.attempted).length = (q.filter TxFrame.attempted).length) ∧
        (b.kind.single = true → ∀ f ∈ kept, f.body.kind ≠ b.kind) := by
    intro habs
    unfold queueEnter
    split
    · exact .inr ⟨q, false, rfl, List.Sublist.refl q, fun _ => by assumption, fun _ => rfl, habs⟩
    · split
      · rename_i h1 h2
        obtain ⟨hsub, g, hg, -, hperm⟩ := dropNewest_perm _ q (lowestClass_mem q _ h2)
        refine .inr ⟨_, true, rfl, hsub, fun hq => ?_, ?_, fun h f hf => habs h f (hsub.subset hf)⟩
        · have := hperm.length_eq
          simp only [List.length_cons] at this
          omega
        · intro _; rw [(hperm.filter _).length_eq, List.filter_cons_of_neg (by simp [hg])]
      · refine .inl ⟨rfl, fun h => ?_⟩
        rename_i h1 h2
        rw [h] at h1
        exact h1 (by decide)
  unfold queueTake
  split
  · rename_i hk
    split
    · rename_i g hg
      have hmem := List.mem_of_find?_eq_some hg
      have hkind : g.body.kind = b.kind := by simpa using List.find?_some hg
      split
      · exact .inl ⟨rfl, fun h => by rw [h] at hmem; cases hmem⟩
      · rename_i ha
        refine .inr ⟨_, _, rfl, List.filter_sublist, fun hq => ?_, ?_, fun _ f hf => ?_⟩
        · have := (List.length_filter_lt_length_iff_exists (p := fun g => g.body.kind != b.kind)).2
            ⟨g, hmem, by simp [hkind]⟩
          omega
        · intro hs
          have hone := hs b.kind (by revert hk; cases b.kind <;> simp [Kind.single])
          rw [List.filter_filter]
          congr 1
          refine List.filter_congr fun x hx => ?_
          by_cases hxk : x.body.kind = b.kind
          · have hmx : x ∈ q.filter (fun f => f.body.kind == b.kind) := List.mem_filter.2 ⟨hx, by simp [hxk]⟩
            have hmg : g ∈ q.filter (fun f => f.body.kind == b.kind) := List.mem_filter.2 ⟨hmem, by simp [hkind]⟩
            obtain ⟨y, hy⟩ := List.length_eq_one_iff.1 (le_antisymm hone (List.length_pos_of_mem hmx))
            rw [hy] at hmx hmg
            have e : x = g := (List.mem_singleton.1 hmx).trans (List.mem_singleton.1 hmg).symm
            simp [e, ha]
          · simp [hxk]
        · simpa using (List.mem_filter.1 hf).2
    · rename_i hn
      exact enter fun _ f hf => by simpa using List.find?_eq_none.1 hn f hf
  · rename_i hk
    exact enter fun h => absurd h hk

/-- A queue that takes a frame stays within its capacity, and no frame's errors pass 2. -/
theorem queueTake_fits (b : Body) (q : List TxFrame) (hl : q.length ≤ 12)
    (he : ∀ f ∈ q, f.errors ≤ 2) :
    (queueTake b q).1.length ≤ 12 ∧ ∀ f ∈ (queueTake b q).1, f.errors ≤ 2 := by
  rcases queueTake_cases b q with ⟨h, -⟩ | ⟨kept, d, h, hsub, hk, -, -⟩
  · rw [h]; exact ⟨hl, he⟩
  · rw [h]
    have hp := queueInsert_perm { body := b, errors := 0, attempted := false } kept
    refine ⟨?_, fun f hf => ?_⟩
    · rw [hp.length_eq]; have := hk hl; simp only [List.length_cons]; omega
    · rcases List.mem_cons.1 (hp.mem_iff.1 hf) with rfl | hf
      · exact Nat.zero_le _
      · exact he f (hsub.subset hf)

/-- A queue that takes a frame is not empty. -/
theorem queueTake_ne_nil (b : Body) (q : List TxFrame) : (queueTake b q).1 ≠ [] := by
  rcases queueTake_cases b q with ⟨h, hn⟩ | ⟨kept, d, h, -⟩
  · rw [h]; exact hn
  · rw [h]; exact List.append_ne_nil_of_right_ne_nil _ (List.cons_ne_nil _ _)

/-- A queue that takes a frame keeps its order, its single kinds and its frame under attempt. -/
theorem queueTake_ordered (b : Body) (q : List TxFrame)
    (ho : q.Pairwise (fun f g => f.body.kind.priority ≤ g.body.kind.priority)) (hs : SingleKinds q) :
    (queueTake b q).1.Pairwise (fun f g => f.body.kind.priority ≤ g.body.kind.priority) ∧
      SingleKinds (queueTake b q).1 ∧
      ((queueTake b q).1.filter TxFrame.attempted).length = (q.filter TxFrame.attempted).length := by
  rcases queueTake_cases b q with ⟨h, -⟩ | ⟨kept, d, h, hsub, -, ha, hk⟩
  · rw [h]; exact ⟨ho, hs, rfl⟩
  · rw [h]
    have hp := queueInsert_perm { body := b, errors := 0, attempted := false } kept
    refine ⟨queueInsert_ordered _ _ (ho.sublist hsub), fun k hkind => ?_, ?_⟩
    · rw [(hp.filter _).length_eq]
      by_cases e : b.kind = k
      · have hnone : kept.filter (fun f => f.body.kind == k) = [] := by
          refine List.filter_eq_nil_iff.2 fun f hf => ?_
          have := hk (by rcases hkind with rfl | rfl | rfl <;> rw [e] <;> rfl) f hf
          simpa [← e] using this
        rw [List.filter_cons, hnone]
        split <;> simp
      · rw [List.filter_cons_of_neg (by simpa using e)]
        exact le_trans (hsub.filter _).length_le (hs k hkind)
    · rw [(hp.filter _).length_eq, List.filter_cons_of_neg (by simp), ha hs]

end Sys2Proof.Machine.Laws
end

