-- ==== Sys2Proof/Laws/Vehicles.lean ====
section
/-! SUPPORT. What forming axles and vehicles can do to the station, said once for every shared operation of chapters 02,
05, 06, 08 and 09 and of the transmit queue: what none of them touches, what the counters do, and which invariants each
keeps. `v?` is a vehicle in hand, taken out of its slot. -/
namespace Sys2Proof.Machine.Laws
open Sys2Proof.Machine.Safety

/-- What an operation on the axles and vehicles of the station `s` can leave as `t`. -/
structure Forms (v? : Option Vehicle) (s t : State) : Prop where
  localTime : t.localTime = s.localTime
  pending : t.pending = s.pending
  control : t.control = s.control
  channels : t.channels = s.channels
  temp : t.temp = s.temp
  handover : t.assembler.handover = s.assembler.handover
  loop : t.assembler.loop = s.assembler.loop
  saveCount : t.drift.saveCount = s.drift.saveCount
  defaulted : t.drift.defaulted = s.drift.defaulted
  camera : t.output.camera = s.output.camera
  cameraEnd : t.output.cameraEnd = s.output.cameraEnd
  link : t.link = { s.link with transmitQueue := t.link.transmitQueue, transmitter := t.link.transmitter }
  overlong : t.counters[2] = s.counters[2]
  counters : ∀ n : Fin 16, s.counters[n] ≤ 65535 → s.counters[n] ≤ t.counters[n] ∧ t.counters[n] ≤ 65535
  capacities : VehicleFits v? → FitsCapacities s → FitsCapacities t
  corrections : (∀ v, v? = some v → correctionInRange v.correction) → CorrectionsFit s → CorrectionsFit t
  temperatures : (∀ v, v? = some v → plausible v.latched.temp) → TemperaturesFit s → TemperaturesFit t
  queue : QueueOrdered s.link → QueueOrdered t.link
  transmitter : TransmitterMatchesQueue s → TransmitterMatchesQueue t

namespace Forms

theorem refl (v? : Option Vehicle) (s : State) : Forms v? s s where
  localTime := rfl
  pending := rfl
  control := rfl
  channels := rfl
  temp := rfl
  handover := rfl
  loop := rfl
  saveCount := rfl
  defaulted := rfl
  camera := rfl
  cameraEnd := rfl
  link := rfl
  overlong := rfl
  counters := fun _ h => ⟨le_refl _, h⟩
  capacities := fun _ h => h
  corrections := fun _ h => h
  temperatures := fun _ h => h
  queue := id
  transmitter := id

theorem trans {v? : Option Vehicle} {s t u : State} (h : Forms v? s t) (g : Forms v? t u) : Forms v? s u where
  localTime := g.localTime.trans h.localTime
  pending := g.pending.trans h.pending
  control := g.control.trans h.control
  channels := g.channels.trans h.channels
  temp := g.temp.trans h.temp
  handover := g.handover.trans h.handover
  loop := g.loop.trans h.loop
  saveCount := g.saveCount.trans h.saveCount
  defaulted := g.defaulted.trans h.defaulted
  camera := g.camera.trans h.camera
  cameraEnd := g.cameraEnd.trans h.cameraEnd
  link := by rw [g.link, h.link]
  overlong := g.overlong.trans h.overlong
  counters := fun n hn =>
    ⟨(h.counters n hn).1.trans (g.counters n (h.counters n hn).2).1, (g.counters n (h.counters n hn).2).2⟩
  capacities := fun hv hs => g.capacities hv (h.capacities hv hs)
  corrections := fun hv hs => g.corrections hv (h.corrections hv hs)
  temperatures := fun hv hs => g.temperatures hv (h.temperatures hv hs)
  queue := fun hs => g.queue (h.queue hs)
  transmitter := fun hs => g.transmitter (h.transmitter hs)

/-- An operation with no vehicle in hand is one with any vehicle in hand. -/
theorem inHand {s t : State} (v? : Option Vehicle) (h : Forms none s t) : Forms v? s t :=
  { h with
    capacities := fun _ => h.capacities (fun _ e => by cases e)
    corrections := fun _ => h.corrections (fun _ e => by cases e)
    temperatures := fun _ => h.temperatures (fun _ e => by cases e) }

/-- An operation with a vehicle in hand that stands in a slot is one with none in hand. -/
theorem ofSlot {s t : State} {v : Vehicle} (k : Slot) (hk : s.vehicleIn k = some v) (h : Forms (some v) s t) :
    Forms none s t :=
  { h with
    capacities := fun _ hs => h.capacities
      (fun w e => by cases e; cases k; exacts [hs.2.1 _ hk, hs.2.2.1 _ hk]) hs
    corrections := fun _ hs => h.corrections
      (fun w e => by cases e; cases k; exacts [hs.2.1 _ hk, hs.2.2 _ hk]) hs
    temperatures := fun _ hs => h.temperatures
      (fun w e => by cases e; cases k; exacts [hs.2.2.2.2.2.1 _ hk, hs.2.2.2.2.2.2 _ hk]) hs }

/-- Two vehicles have as many axles and have latched the same. -/
structure Like (v w : Vehicle) : Prop where
  axles : w.axles.length = v.axles.length
  correction : w.correction = v.correction
  latched : w.latched = v.latched

/-- An operation with a vehicle in hand that has the axles and the latched values of another is one with that other in
hand. -/
theorem like {s t : State} {v w : Vehicle} (hw : Like v w) (h : Forms (some w) s t) : Forms (some v) s t :=
  { h with
    capacities := fun hv => h.capacities (fun _ e => by cases e; rw [hw.axles]; exact hv v rfl)
    corrections := fun hv => h.corrections (fun _ e => by cases e; rw [hw.correction]; exact hv v rfl)
    temperatures := fun hv => h.temperatures (fun _ e => by cases e; rw [hw.latched]; exact hv v rfl) }

end Forms

/-! ## The primitive updates -/

theorem counted_place (v : Vector Nat 16) (c n : Fin 16) (m : Nat) :
    (v.set c m)[n] = if n = c then m else v[n] := by
  rw [Fin.getElem_fin, Vector.getElem_set]
  by_cases h : n = c
  · subst h; simp
  · rw [if_neg (fun e => h (Fin.ext e.symm)), if_neg h]; rfl

/-- A counter other than the overlong pulses adds up and saturates. -/
theorem Forms.bumpBy (v? : Option Vehicle) (c : Counter) (n : Nat) (s : State) (hc : c ≠ .overlongPulses) :
    Forms v? s (s.bumpBy c n) :=
  { Forms.refl v? s with
    overlong := by
      have := counted_place s.counters c.place 2 (min Config.counterMax (s.counter c + n))
      rw [if_neg (by cases c <;> first | exact absurd rfl hc | decide)] at this
      exact this
    counters := fun m hm => by
      have := counted_place s.counters c.place m (min Config.counterMax (s.counter c + n))
      simp only [State.bumpBy]
      rw [this]
      split
      · rename_i e
        subst e
        show s.counters[c.place] ≤ min 65535 (s.counters[c.place] + n) ∧ min 65535 (s.counters[c.place] + n) ≤ 65535
        omega
      · exact ⟨le_refl _, hm⟩ }

/-- A counter other than the overlong pulses adds 1 and saturates. -/
theorem Forms.bump (v? : Option Vehicle) (c : Counter) (s : State) (hc : c ≠ .overlongPulses) :
    Forms v? s (s.bump c) := Forms.bumpBy v? c 1 s hc

/-- The slots of the assembler change, and the number last issued. -/
theorem Forms.slots (v? : Option Vehicle) (s : State) (a : Assembler) (hh : a.handover = s.assembler.handover)
    (hl : a.loop = s.assembler.loop)
    (hf : VehicleFits v? → VehicleFits s.assembler.openVehicle → VehicleFits s.assembler.closingVehicle →
      VehicleFits a.openVehicle ∧ VehicleFits a.closingVehicle)
    (hc : (∀ v, v? = some v → correctionInRange v.correction) → CorrectionsFit s →
      (∀ v, a.openVehicle = some v → correctionInRange v.correction) ∧
        ∀ v, a.closingVehicle = some v → correctionInRange v.correction)
    (ht : (∀ v, v? = some v → plausible v.latched.temp) → TemperaturesFit s →
      (∀ v, a.openVehicle = some v → plausible v.latched.temp) ∧
        ∀ v, a.closingVehicle = some v → plausible v.latched.temp) :
    Forms v? s { s with assembler := a } :=
  { Forms.refl v? s with
    handover := hh
    loop := hl
    capacities := fun hv hs => ⟨hs.1, (hf hv hs.2.1 hs.2.2.1).1, (hf hv hs.2.1 hs.2.2.1).2, hs.2.2.2⟩
    corrections := fun hv hs => ⟨hs.1, (hc hv hs).1, (hc hv hs).2⟩
    temperatures := fun hv hs => ⟨hs.1, hs.2.1, hs.2.2.1, hs.2.2.2.1, by simp only [hh]; exact hs.2.2.2.2.1, ht hv hs⟩ }

/-- The vehicle in hand enters a slot. -/
theorem Forms.setSlot (k : Slot) (v : Vehicle) (s : State) : Forms (some v) s (s.setSlot k (some v)) := by
  cases k
  · exact Forms.slots _ _ _ rfl rfl (fun h _ h2 => ⟨h, h2⟩) (fun h hs => ⟨h, hs.2.2⟩)
      (fun h hs => ⟨h, hs.2.2.2.2.2.2⟩)
  · exact Forms.slots _ _ _ rfl rfl (fun h h1 _ => ⟨h1, h⟩) (fun h hs => ⟨hs.2.1, h⟩)
      (fun h hs => ⟨hs.2.2.2.2.2.1, h⟩)

/-- A slot becomes empty. -/
theorem Forms.clearSlot (v? : Option Vehicle) (k : Slot) (s : State) : Forms v? s (s.setSlot k none) := by
  cases k
  · exact Forms.slots _ _ _ rfl rfl (fun _ _ h2 => ⟨fun _ e => (by cases e), h2⟩) (fun _ hs => ⟨fun _ e => (by cases e), hs.2.2⟩)
      (fun _ hs => ⟨fun _ e => (by cases e), hs.2.2.2.2.2.2⟩)
  · exact Forms.slots _ _ _ rfl rfl (fun _ h1 _ => ⟨h1, fun _ e => (by cases e)⟩) (fun _ hs => ⟨hs.2.1, fun _ e => (by cases e)⟩)
      (fun _ hs => ⟨hs.2.2.2.2.2.1, fun _ e => (by cases e)⟩)

/-- A vehicle of a slot changes in something else than the number of its axles and what it has latched. -/
theorem Forms.updateVehicle (v? : Option Vehicle) (n : Nat) (f : Vehicle → Vehicle) (s : State)
    (hf : ∀ v, Forms.Like v (f v)) :
    Forms v? s (s.updateVehicle n f) := by
  unfold State.updateVehicle
  split
  · exact Forms.refl _ _
  · rename_i k hk
    cases hv : s.vehicleIn k with
    | none => exact Forms.clearSlot _ _ _
    | some v => exact Forms.inHand v? (Forms.ofSlot k hv (Forms.like (hf v) (Forms.setSlot k (f v) s)))

/-- The flags of the open vehicle change. -/
theorem Forms.flagOpen (v? : Option Vehicle) (f : Flags → Flags) (s : State) : Forms v? s (s.flagOpen f) :=
  Forms.slots _ _ _ rfl rfl
    (fun _ h1 h2 => ⟨fun v e => by
      obtain ⟨w, hw, rfl⟩ := Option.map_eq_some_iff.1 e
      exact h1 w hw, h2⟩)
    (fun _ hs => ⟨fun v e => by
      obtain ⟨w, hw, rfl⟩ := Option.map_eq_some_iff.1 e
      exact hs.2.1 w hw, hs.2.2⟩)
    (fun _ hs => ⟨fun v e => by
      obtain ⟨w, hw, rfl⟩ := Option.map_eq_some_iff.1 e
      exact hs.2.2.2.2.2.1 w hw, hs.2.2.2.2.2.2⟩)

/-- The edge list and the remote lists change within their capacities. -/
theorem Forms.boundary (v? : Option Vehicle) (s : State) (b : Boundary) (h : BoundaryFits s.boundary → BoundaryFits b) :
    Forms v? s { s with boundary := b } :=
  { Forms.refl v? s with
    capacities := fun _ hs => ⟨hs.1, hs.2.1, hs.2.2.1, h hs.2.2.2.1, hs.2.2.2.2⟩ }

/-- The lists of the halves change within their capacities. -/
theorem Forms.pairs (v? : Option Vehicle) (s : State) (p : PerHalf HalfLists) (h : PairsFit s.pairs → PairsFit p) :
    Forms v? s { s with pairs := p } :=
  { Forms.refl v? s with
    capacities := fun _ hs => ⟨h hs.1, hs.2⟩ }

/-- The triggers and the overload line change. -/
theorem Forms.output (v? : Option Vehicle) (s : State) (o : Output) (hc : o.camera = s.output.camera)
    (he : o.cameraEnd = s.output.cameraEnd) (h : s.output.triggers.length ≤ 4 → o.triggers.length ≤ 4) :
    Forms v? s { s with output := o } :=
  { Forms.refl v? s with
    camera := hc
    cameraEnd := he
    capacities := fun _ hs => ⟨hs.1, hs.2.1, hs.2.2.1, hs.2.2.2.1, hs.2.2.2.2.1, h hs.2.2.2.2.2.1, hs.2.2.2.2.2.2⟩ }

/-- The bands and the store change, the corrections within their range. -/
theorem Forms.drift (v? : Option Vehicle) (s : State) (d : Drift) (hs : d.saveCount = s.drift.saveCount)
    (hd : d.defaulted = s.drift.defaulted)
    (h : (∀ b : Fin 8, correctionInRange s.drift.bands[b].correction) →
      ∀ b : Fin 8, correctionInRange d.bands[b].correction) : Forms v? s { s with drift := d } :=
  { Forms.refl v? s with
    saveCount := hs
    defaulted := hd
    corrections := fun _ hs => ⟨h hs.1, hs.2⟩ }

/-- One free value is drawn. -/
theorem Forms.drawn (v? : Option Vehicle) (s : State) : Forms v? s s.drawn := { Forms.refl v? s with }

/-! ## The transmit queue -/

/-- A frame enters the transmit queue of a station that transmits. -/
theorem Forms.enqueue (v? : Option Vehicle) (b : Body) (s : State)
    (hst : s.control.station = .running ∨ s.control.station = .halted) : Forms v? s (s.enqueue b) := by
  have key : Forms v? s { s with link := { s.link with
      transmitQueue := (queueTake b s.link.transmitQueue).1
      transmitter := match s.link.transmitter with
        | .idle => if (queueTake b s.link.transmitQueue).1.isEmpty then .idle else .waitIdle
        | other => other } } := by
    have hne := queueTake_ne_nil b s.link.transmitQueue
    have hie : (queueTake b s.link.transmitQueue).1.isEmpty = false := by
      rw [Bool.eq_false_iff]; exact fun h => hne (List.isEmpty_iff.1 h)
    refine { Forms.refl v? s with link := rfl, capacities := fun _ hs => ?_, queue := fun hq => ?_, transmitter := fun ht => ?_ }
    · refine ⟨hs.1, hs.2.1, hs.2.2.1, hs.2.2.2.1, hs.2.2.2.2.1, hs.2.2.2.2.2.1, ?_, hs.2.2.2.2.2.2.2⟩
      obtain ⟨h1, h2, h3, h4, h5⟩ := hs.2.2.2.2.2.2.1
      obtain ⟨g1, g2⟩ := queueTake_fits b _ h2 h5
      exact ⟨h1, g1, h3, h4, g2⟩
    · obtain ⟨g1, g2, g3⟩ := queueTake_ordered b _ hq.1 hq.2.1
      refine ⟨g1, g2, ?_⟩
      simp only [g3, hq.2.2, hie]
      cases s.link.transmitter <;> simp
    · obtain ⟨h1, h2, h3, h4, h5, h6⟩ := ht
      have hm : s.link.transmitter ≠ .mute := fun h => by
        obtain ⟨o, ho⟩ := h4.1 h
        rcases hst with hst | hst <;> rw [hst] at ho <;> cases ho
      have hns : s.control.station ≠ .starting := by rcases hst with hst | hst <;> rw [hst] <;> decide
      have hnm : ¬ ∃ o, s.control.station = .mute o := by
        rintro ⟨o, ho⟩; rcases hst with hst | hst <;> rw [hst] at ho <;> cases ho
      refine ⟨?_, fun _ => hne, fun h => absurd h hns, ?_, ?_, ?_⟩ <;>
        simp only [hie] <;> cases ht : s.link.transmitter <;> simp_all
  unfold State.enqueue
  simp only
  split
  · exact key.trans (Forms.bumpBy _ _ _ _ (by decide))
  · exact key

/-- A block produces a frame. -/
theorem Forms.produce (v? : Option Vehicle) (b : Body) (s : State) : Forms v? s (s.produce b) := by
  unfold State.produce
  split
  · exact Forms.enqueue _ _ _ (.inl (by assumption))
  · exact Forms.enqueue _ _ _ (.inr (by assumption))
  · exact Forms.refl _ _
  · exact Forms.refl _ _

/-! ## The boundary unit and completion -/

/-- A TRANSFER is formed. -/
theorem Forms.forwardAxle (v? : Option Vehicle) (n : Nat) (a : Axle) (s : State) : Forms v? s (s.forwardAxle n a) := by
  unfold State.forwardAxle
  split
  · refine Forms.trans ?_ (Forms.produce _ _ _)
    exact Forms.updateVehicle _ _ _ _ (fun _ => ⟨rfl, rfl, rfl⟩)
  · exact Forms.refl _ _

/-- An entry leaves the edge list. -/
theorem Forms.dropEdge (v? : Option Vehicle) (n tag : Nat) (s : State) : Forms v? s (s.dropEdge n tag) :=
  Forms.boundary _ _ _ fun h => ⟨(List.length_filter_le _ _).trans h.1, h.2⟩

/-- An edge axle resolves as unmatched (R100). -/
theorem Forms.resolveEdge (v? : Option Vehicle) (e : EdgeEntry) (s : State) : Forms v? s (s.resolveEdge e) := by
  unfold State.resolveEdge
  simp only
  refine (Forms.dropEdge v? e.vehicle e.tag s).trans ?_
  split
  · exact Forms.refl _ _
  · split
    · split
      · exact Forms.forwardAxle _ _ _ _
      · exact Forms.refl _ _
    · refine Forms.trans ?_ (Forms.bump _ _ _ (by decide))
      exact Forms.updateVehicle _ _ _ _ (fun _ => ⟨rfl, rfl, rfl⟩)

/-- A run of operations of one kind. -/
theorem Forms.foldl {α : Type} (v? : Option Vehicle) (f : State → α → State) (hf : ∀ s a, Forms v? s (f s a))
    (l : List α) (s : State) : Forms v? s (l.foldl f s) := by
  induction l generalizing s with
  | nil => exact Forms.refl _ _
  | cons a l ih => exact (hf s a).trans (ih _)

/-- Several edge axles resolve as unmatched. -/
theorem Forms.resolveEdges (v? : Option Vehicle) (l : List EdgeEntry) (s : State) : Forms v? s (s.resolveEdges l) :=
  Forms.foldl v? _ (fun s e => Forms.resolveEdge v? e s) l s

/-- The trigger stage (R146 to R149). -/
theorem Forms.scheduleTrigger (v? : Option Vehicle) (v : Vehicle) (f : Flags) (w : Verdict) (s : State) :
    Forms v? s (s.scheduleTrigger v f w).2 := by
  unfold State.scheduleTrigger
  split
  · split
    · exact Forms.bumpBy _ _ _ _ (by decide)
    · rename_i h
      refine Forms.output _ _ _ rfl rfl fun _ => ?_
      have : ∀ (p : LocalTime → Bool) (l : List LocalTime), (l.takeWhile p).length + (l.dropWhile p).length = l.length := by
        intro p l
        rw [← List.length_append, List.takeWhile_append_dropWhile]
      simp only [triggerInsert, List.length_append, List.length_cons]
      rw [← Nat.add_assoc, this]
      simp only [Config.triggerCapacity] at h
      omega
  · exact Forms.refl _ _

/-- The overload stage (R153, R154). -/
theorem Forms.takeVerdict (v? : Option Vehicle) (w : Verdict) (s : State) : Forms v? s (s.takeVerdict w) :=
  Forms.output _ _ _ rfl rfl id

/-- The clamped correction of an update lies in its range (R133). -/
theorem updatedCorrection_inRange (p : Params) (old sum : Nat) : correctionInRange (updatedCorrection p old sum) := by
  unfold updatedCorrection
  generalize clampNat (old - p.maxStep) (old + p.maxStep) (targetCorrection p.nominal p.samples sum) = x
  unfold clampNat correctionInRange
  split
  · omega
  · split <;> omega

/-- The drift stage (R131 to R136). -/
theorem Forms.driftStage (v? : Option Vehicle) (v : Vehicle) (f : Flags) (cls : Nat) (sm : Summary) (s : State) :
    Forms v? s (s.driftStage v f cls sm) := by
  unfold State.driftStage
  split
  · have key : ∀ (b : Bool) (d : Drift), (if b then d.requestSave s.localTime else d).saveCount = d.saveCount ∧
        (if b then d.requestSave s.localTime else d).defaulted = d.defaulted ∧
        (if b then d.requestSave s.localTime else d).bands = d.bands := by
      intro b d
      cases b
      · exact ⟨rfl, rfl, rfl⟩
      · simp only [if_true, Drift.requestSave]
        split <;> exact ⟨rfl, rfl, rfl⟩
    refine Forms.drift _ _ _ (key _ _).1 (key _ _).2.1 fun h b => ?_
    rw [(key _ _).2.2]
    simp only [Fin.getElem_fin, Vector.getElem_set]
    split
    · unfold Band.sampled
      split
      · exact updatedCorrection_inRange _ _ _
      · exact h v.latched.band
    · exact h b
  · exact Forms.refl _ _

/-- The completion operation (R84, R85). -/
theorem Forms.complete (v? : Option Vehicle) (v : Vehicle) (s : State) : Forms v? s (s.complete v) := by
  unfold State.complete
  simp only
  refine Forms.trans ?_ (Forms.produce _ _ _)
  refine Forms.trans ?_ (Forms.bump _ _ _ (by decide))
  refine Forms.trans ?_ (Forms.driftStage _ _ _ _ _ _)
  refine Forms.trans ?_ (Forms.takeVerdict _ _ _)
  exact Forms.scheduleTrigger _ _ _ _ _

/-- A vehicle ends as yielded (R104). -/
theorem Forms.endYielded (v? : Option Vehicle) (v : Vehicle) (s : State) : Forms v? s (s.endYielded v) :=
  Forms.trans (Forms.produce v? _ s) (Forms.bump _ _ _ (by decide))

/-- The close of the closing vehicle is tested (R109). -/
theorem Forms.closeTest (v? : Option Vehicle) (s : State) : Forms v? s s.closeTest := by
  unfold State.closeTest
  split
  · exact Forms.refl _ _
  · split
    · exact Forms.refl _ _
    · split
      · exact (Forms.clearSlot _ _ _).trans (Forms.complete _ _ _)
      · split
        · exact (Forms.clearSlot _ _ _).trans (Forms.complete _ _ _)
        · exact Forms.refl _ _
      · split
        · exact (Forms.clearSlot _ _ _).trans (Forms.endYielded _ _ _)
        · exact Forms.refl _ _

/-- The closing vehicle is ended at once (R110). -/
theorem Forms.endEarlier (v? : Option Vehicle) (w : Vehicle) (s : State) : Forms v? s (s.endEarlier w) := by
  unfold State.endEarlier
  simp only
  refine (Forms.resolveEdges v? (s.edgesOf w.number) s).trans ?_
  split
  · exact Forms.refl _ _
  · refine (Forms.clearSlot v? .closingSlot _).trans ?_
    split
    · exact Forms.endYielded _ _ _
    · exact Forms.complete _ _ _
    · exact Forms.complete _ _ _

/-- The vehicle in hand enters the closing slot (R70, R110). -/
theorem Forms.enterClosing (v : Vehicle) (s : State) : Forms (some v) s (s.enterClosing v) := by
  unfold State.enterClosing
  simp only
  split
  · exact Forms.setSlot _ _ _
  · exact (Forms.endEarlier _ _ _).trans (Forms.setSlot _ _ _)

/-- The open vehicle ends (R73). -/
theorem Forms.endOpen (v? : Option Vehicle) (s : State) : Forms v? s s.endOpen := by
  unfold State.endOpen
  split
  · exact Forms.refl _ _
  · rename_i v hv
    refine Forms.inHand v? (Forms.ofSlot .openSlot hv ((Forms.clearSlot (some v) .openSlot s).trans ?_))
    simp only
    split
    · split
      · exact Forms.endYielded _ _ _
      · exact Forms.enterClosing _ _
    · split
      · exact Forms.enterClosing _ _
      · exact Forms.complete _ _ _
    · split
      · exact Forms.enterClosing _ _
      · exact Forms.complete _ _ _

/-- A remote list changes within its capacity. -/
theorem Forms.setRemote (v? : Option Vehicle) (side : Half) (l : List RemoteNotice) (s : State)
    (h : (s.boundary.remote.get side).length ≤ 8 → l.length ≤ 8) : Forms v? s (s.setRemote side l) := by
  cases side
  · exact Forms.boundary _ _ _ fun hb => ⟨hb.1, h hb.2.1, hb.2.2⟩
  · exact Forms.boundary _ _ _ fun hb => ⟨hb.1, hb.2.1, h hb.2.2⟩

/-- A half fills an axle, whose vehicle keeps its axles and what it has latched. -/
theorem fillAxle_like (a : Axle) (h : Half) (l : HalfLoad) (v : Vehicle) : Forms.Like v (v.fillAxle a h l) := by
  constructor <;> simp [Vehicle.fillAxle, Vehicle.takeMarks]

/-- A remote half is added (R102). -/
theorem Forms.addRemoteHalf (v? : Option Vehicle) (e : EdgeEntry) (n : RemoteNotice) (s : State) :
    Forms v? s (s.addRemoteHalf e n) :=
  Forms.updateVehicle _ _ _ _ fun v => by
    split
    · exact ⟨rfl, rfl, rfl⟩
    · exact fillAxle_like _ _ _ _

/-- A match is made (R98, R99, R101 to R103). -/
theorem Forms.makeMatch (v? : Option Vehicle) (e : EdgeEntry) (n : RemoteNotice) (s : State) :
    Forms v? s (s.makeMatch e n) := by
  unfold State.makeMatch
  simp only
  refine (Forms.dropEdge v? e.vehicle e.tag s).trans ?_
  split
  · exact Forms.refl _ _
  · split
    · exact Forms.addRemoteHalf _ _ _ _
    · exact Forms.refl _ _
    · split
      · refine Forms.trans ?_ (Forms.addRemoteHalf _ _ _ _)
        refine Forms.trans ?_ (Forms.resolveEdges _ _ _)
        exact Forms.updateVehicle _ _ _ _ (fun _ => ⟨rfl, rfl, rfl⟩)
      · refine Forms.trans ?_ (Forms.foldl _ _ (fun s a => Forms.forwardAxle _ _ _ _) _ _)
        refine Forms.trans ?_ (Forms.resolveEdges _ _ _)
        exact Forms.updateVehicle _ _ _ _ (fun _ => ⟨rfl, rfl, rfl⟩)

/-- Producing a frame and changing a vehicle leave the boundary unit alone. -/
theorem produce_boundary (b : Body) (s : State) : (s.produce b).boundary = s.boundary := by
  unfold State.produce State.enqueue
  split
  · simp only; split <;> rfl
  · simp only; split <;> rfl
  · rfl
  · rfl

theorem setSlot_boundary (k : Slot) (v : Option Vehicle) (s : State) : (s.setSlot k v).boundary = s.boundary := by
  cases k <;> rfl

theorem updateVehicle_boundary (n : Nat) (f : Vehicle → Vehicle) (s : State) :
    (s.updateVehicle n f).boundary = s.boundary := by
  unfold State.updateVehicle
  split
  · rfl
  · exact setSlot_boundary _ _ _

/-- An entry that stands in the edge list leaves it when it resolves. -/
theorem resolveEdge_edges (e : EdgeEntry) (s : State) :
    (s.resolveEdge e).boundary.edges = (s.dropEdge e.vehicle e.tag).boundary.edges := by
  unfold State.resolveEdge
  simp only
  split
  · rfl
  · split
    · split
      · unfold State.forwardAxle
        split
        · rw [produce_boundary, updateVehicle_boundary]
        · rfl
      · rfl
    · show (State.updateVehicle _ _ _).boundary.edges = _
      rw [updateVehicle_boundary]

/-- Completion leaves the boundary unit alone. -/
theorem complete_boundary (v : Vehicle) (s : State) : (s.complete v).boundary = s.boundary := by
  unfold State.complete
  simp only
  rw [produce_boundary]
  show (State.driftStage _ _ _ _ _).boundary = _
  unfold State.driftStage
  split <;> show (State.scheduleTrigger _ _ _ _).2.boundary = _ <;> unfold State.scheduleTrigger <;>
    repeat' split
  all_goals rfl

/-- The close test leaves the boundary unit alone. -/
theorem closeTest_boundary (s : State) : s.closeTest.boundary = s.boundary := by
  unfold State.closeTest
  split
  · rfl
  · split
    · rfl
    · split
      · rw [complete_boundary, setSlot_boundary]
      · split
        · rw [complete_boundary, setSlot_boundary]
        · rfl
      · split
        · show (State.produce _ _).boundary = _
          rw [produce_boundary, setSlot_boundary]
        · rfl

/-- An edge axle joins the edge list and is matched (R91, R92, R98). -/
theorem Forms.admitEdge (v? : Option Vehicle) (v : Vehicle) (a : Axle) (side : Half) (l : HalfLoad) (s : State) :
    Forms v? s (s.admitEdge v a side l) := by
  have hf : Forms v? s s.edgeRoom := by
    unfold State.edgeRoom
    split
    · split
      · exact (Forms.resolveEdge _ _ _).trans (Forms.closeTest _ _)
      · exact Forms.refl _ _
    · exact Forms.refl _ _
  have hr : BoundaryFits s.boundary → s.edgeRoom.boundary.edges.length ≤ 3 := by
    intro hb
    unfold State.edgeRoom
    split
    · rename_i e rest he
      split
      · rw [closeTest_boundary, resolveEdge_edges]
        have : (s.dropEdge e.vehicle e.tag).boundary.edges.length < s.boundary.edges.length :=
          List.length_filter_lt_length_iff_exists.2 ⟨e, by rw [he]; exact List.mem_cons_self, by simp⟩
        have := hb.1
        omega
      · rename_i h
        simp only [Config.edgeCapacity] at h
        omega
    · rename_i h; rw [h]; exact Nat.zero_le _
  unfold State.admitEdge
  simp only
  generalize s.edgeRoom = t at hf hr ⊢
  have joined : ∀ e : EdgeEntry, Forms v? s { t with boundary := { t.boundary with edges := t.boundary.edges ++ [e] } } := by
    intro e
    refine { hf with capacities := fun hv hs => ?_ }
    have := hf.capacities hv hs
    refine ⟨this.1, this.2.1, this.2.2.1, ⟨?_, this.2.2.2.1.2⟩, this.2.2.2.2⟩
    simp only [List.length_append, List.length_singleton]
    have := hr hs.2.2.2.1
    omega
  split
  · refine Forms.trans ?_ (Forms.produce _ _ _)
    exact joined _
  · refine Forms.trans ?_ (Forms.closeTest _ _)
    refine Forms.trans ?_ (Forms.makeMatch _ _ _ _)
    refine Forms.trans ?_ (Forms.setRemote _ _ _ _ (fun h => (List.length_erase_le).trans h))
    refine Forms.trans ?_ (Forms.produce _ _ _)
    exact joined _

/-! ## Admission and half combination -/

/-- A placed axle is one more axle. -/
theorem placeAt_axles (p : Params) (n : Nat) (o : Observation) (v : Vehicle) :
    (v.placeAt p n o).axles.length = v.axles.length + 1 ∧ (v.placeAt p n o).correction = v.correction ∧
      (v.placeAt p n o).latched = v.latched := by
  refine ⟨?_, rfl, rfl⟩
  simp only [Vehicle.placeAt, Vehicle.takeMarks, Vehicle.insertAxle, List.length_append, List.length_cons,
    List.length_take, List.length_drop]
  omega

/-- The axle just placed is tested (R90, R103). -/
theorem Forms.afterPlacement (v? : Option Vehicle) (a : Axle) (s : State) : Forms v? s (s.afterPlacement a) := by
  unfold State.afterPlacement
  split
  · exact Forms.refl _ _
  · split
    · exact Forms.forwardAxle _ _ _ _
    · split
      · exact Forms.admitEdge _ _ _ _ _ _
      · exact Forms.refl _ _

/-- An observation placed in a vehicle with room, which then stands in the open slot. -/
theorem Forms.placeOpen (v? : Option Vehicle) (n : Nat) (latest : Bool) (o : Observation) (v : Vehicle) (s : State)
    (hl : v.axles.length < 12) (hc : CorrectionsFit s → correctionInRange v.correction)
    (ht : TemperaturesFit s → plausible v.latched.temp) :
    Forms v? s (s.placeOpen n latest o v) := by
  unfold State.placeOpen
  simp only
  refine Forms.trans ?_ (Forms.afterPlacement _ _ _)
  have hw : ∀ w : Vehicle, w.axles.length = v.axles.length + 1 → w.correction = v.correction → w.latched = v.latched →
      Forms v? s (s.setSlot .openSlot (some w)) := by
    intro w ha hcw htw
    refine Forms.slots _ _ _ rfl rfl (fun _ _ h2 => ⟨fun x e => ?_, h2⟩) (fun _ hs => ⟨fun x e => ?_, hs.2.2⟩)
      (fun _ hs => ⟨fun x e => ?_, hs.2.2.2.2.2.2⟩)
    · cases e; omega
    · cases e; rw [hcw]; exact hc hs
    · cases e; rw [htw]; exact ht hs
  cases latest
  · exact hw _ (placeAt_axles _ _ _ _).1 rfl rfl
  · exact hw _ (placeAt_axles _ _ _ _).1 rfl rfl

/-- An observation opens a vehicle (R72). -/
theorem Forms.openWith (v? : Option Vehicle) (o : Observation) (c : Bool) (s : State) :
    Forms v? s (s.openWith o c) := by
  unfold State.openWith
  simp only
  refine Forms.trans ?_ (Forms.placeOpen _ _ _ _ _ _ (by simp [newVehicle]) (fun h => h.1 _) (fun h => h.2.2.2.2.1))
  exact Forms.slots _ _ _ rfl rfl (fun _ h1 h2 => ⟨h1, h2⟩) (fun _ hs => ⟨hs.2.1, hs.2.2⟩)
    (fun _ hs => ⟨hs.2.2.2.2.2.1, hs.2.2.2.2.2.2⟩)

/-- A late axle (R78). -/
theorem Forms.placeLate (v? : Option Vehicle) (o : Observation) (v : Vehicle) (s : State)
    (hv : s.assembler.openVehicle = some v) : Forms v? s (s.placeLate o v) := by
  unfold State.placeLate
  simp only
  split
  · rename_i h
    have hl : v.axles.length < 12 := by
      have := (Bool.and_eq_true_iff.1 h).2
      simpa [Config.axleCapacity] using this
    exact Forms.placeOpen _ _ _ _ _ _ hl (fun hs => hs.2.1 v hv) (fun hs => hs.2.2.2.2.2.1 v hv)
  · exact Forms.flagOpen _ _ _

/-- An axle is admitted (R32, R70, R72, R77 to R79, R106). -/
theorem Forms.admitAxle (v? : Option Vehicle) (o : Observation) (s : State) : Forms v? s (s.admitAxle o) := by
  unfold State.admitAxle
  refine (Forms.bump v? .axlesAdmitted s (by decide)).trans ?_
  generalize s.bump .axlesAdmitted = s
  unfold State.placeAxle
  split
  · exact Forms.openWith _ _ _ _
  · rename_i v hv
    split
    · refine Forms.inHand v? (Forms.ofSlot .openSlot hv ?_)
      exact Forms.like (fillAxle_like _ _ _ _) (Forms.setSlot _ _ _)
    · split
      · split
        · split
          · rename_i h
            exact Forms.placeOpen _ _ _ _ _ _ h (fun hs => hs.2.1 v hv) (fun hs => hs.2.2.2.2.2.1 v hv)
          · exact ((Forms.flagOpen _ _ _).trans (Forms.endOpen _ _)).trans (Forms.openWith _ _ _ _)
        · exact (Forms.endOpen _ _).trans (Forms.openWith _ _ _ _)
      · exact Forms.placeLate _ _ _ _ hv

/-- The collections of a half change within their capacities. -/
theorem Forms.setLists (v? : Option Vehicle) (h : Half) (l : HalfLists) (s : State)
    (h1 : (s.pairs.get h).leads.length ≤ 8 → l.leads.length ≤ 8)
    (h2 : (s.pairs.get h).orphans.length ≤ 4 → l.orphans.length ≤ 4)
    (h3 : (∀ x, (s.pairs.get h).slot = some x → x.half = h) → ∀ x, l.slot = some x → x.half = h) :
    Forms v? s (s.setLists h l) := by
  cases h
  · exact Forms.pairs _ _ _ fun p => ⟨h1 p.1, p.2.1, h2 p.2.2.1, p.2.2.2.1, h3 p.2.2.2.2.1, p.2.2.2.2.2⟩
  · exact Forms.pairs _ _ _ fun p => ⟨p.1, h1 p.2.1, p.2.2.1, h2 p.2.2.2.1, p.2.2.2.2.1, h3 p.2.2.2.2.2⟩

/-- A slot of a half is emptied. -/
theorem Forms.clearHalfSlot (v? : Option Vehicle) (h : Half) (s : State) : Forms v? s (s.setHalfSlot h none) :=
  Forms.setLists _ _ _ _ id id (fun _ _ e => by cases e)

/-- An axle is admitted after the halves that wait with an earlier lead time (R29). -/
theorem Forms.admitOrdered (v? : Option Vehicle) (o : Observation) (s : State) : Forms v? s (s.admitOrdered o) := by
  unfold State.admitOrdered
  split
  · exact Forms.admitAxle _ _ _
  · exact ((Forms.clearHalfSlot _ _ _).trans (Forms.admitAxle _ _ _)).trans (Forms.admitAxle _ _ _)
  · exact ((Forms.clearHalfSlot _ _ _).trans (Forms.admitAxle _ _ _)).trans (Forms.admitAxle _ _ _)
  · simp only
    refine (Forms.clearHalfSlot v? .left s).trans ((Forms.clearHalfSlot v? .right _).trans ?_)
    split
    · exact ((Forms.admitAxle _ _ _).trans (Forms.admitAxle _ _ _)).trans (Forms.admitAxle _ _ _)
    · split
      · exact ((Forms.admitAxle _ _ _).trans (Forms.admitAxle _ _ _)).trans (Forms.admitAxle _ _ _)
      · split
        · exact (((Forms.drawn _ _).trans (Forms.admitAxle _ _ _)).trans (Forms.admitAxle _ _ _)).trans (Forms.admitAxle _ _ _)
        · exact (((Forms.drawn _ _).trans (Forms.admitAxle _ _ _)).trans (Forms.admitAxle _ _ _)).trans (Forms.admitAxle _ _ _)

/-- A half-axle that waits is released (R28). -/
theorem Forms.releaseHalf (v? : Option Vehicle) (h : Half) (x : HalfAxle) (s : State) :
    Forms v? s (s.releaseHalf h x) :=
  (Forms.clearHalfSlot _ _ _).trans (Forms.admitOrdered _ _ _)

/-- Half combination takes a half-axle (R26). -/
theorem Forms.combineHalf (v? : Option Vehicle) (h : HalfAxle) (s : State) : Forms v? s (s.combineHalf h) := by
  have waits : ∀ s : State, Forms v? s (s.setHalfSlot h.half (some h)) := fun s =>
    Forms.setLists _ _ _ _ id id (fun _ _ e => by cases e; rfl)
  unfold State.combineHalf
  split
  · simp only
    have free : Forms v? s (s.freeHalf h.half) := by
      unfold State.freeHalf
      split
      · exact Forms.releaseHalf _ _ _ _
      · exact Forms.refl _ _
    refine free.trans ?_
    split
    · split
      · exact (Forms.clearHalfSlot _ _ _).trans (Forms.admitOrdered _ _ _)
      · exact waits _
    · exact waits _
  · exact Forms.admitOrdered _ _ _

/-- Leads expire (R23). -/
theorem Forms.expireLeads (v? : Option Vehicle) (n : Nat) (s : State) : Forms v? s (s.expireLeads n) := by
  unfold State.expireLeads
  split
  · exact Forms.refl _ _
  · exact (Forms.bumpBy v? .loneLeads n s (by decide)).trans (Forms.flagOpen _ _ _)

/-- Orphans expire (R23). -/
theorem Forms.expireOrphans (v? : Option Vehicle) (n : Nat) (s : State) : Forms v? s (s.expireOrphans n) := by
  unfold State.expireOrphans
  split
  · exact Forms.refl _ _
  · exact Forms.bumpBy _ _ _ _ (by decide)

/-- Expiry leaves the lists alone. -/
theorem expire_pairs (n : Nat) (s : State) : (s.expireOrphans n).pairs = s.pairs ∧ (s.expireLeads n).pairs = s.pairs := by
  unfold State.expireOrphans State.expireLeads
  constructor <;> split <;> rfl

/-- A lead arrives (R20). -/
theorem Forms.leadArrival (v? : Option Vehicle) (h : Half) (x : Pulse) (s : State) :
    Forms v? s (s.leadArrival h x) := by
  unfold State.leadArrival
  simp only
  split
  · refine Forms.trans ?_ (Forms.combineHalf _ _ _)
    refine (Forms.expireOrphans v? _ s).trans (Forms.setLists _ _ _ _ ?_ ?_ ?_)
    · rw [(expire_pairs _ s).1]; exact id
    · rw [(expire_pairs _ s).1]
      exact fun h => (List.length_erase_le.trans (List.length_filter_le _ _)).trans h
    · rw [(expire_pairs _ s).1]; exact id
  · split
    · rename_i hc
      refine ((Forms.expireOrphans v? _ s).trans (Forms.expireLeads v? 1 _)).trans (Forms.setLists _ _ _ _ ?_ ?_ ?_)
      · rw [(expire_pairs _ _).2, (expire_pairs _ _).1]
        intro h8
        simp only [List.length_append, List.length_tail, List.length_singleton, Config.leadCapacity] at hc ⊢
        omega
      · rw [(expire_pairs _ _).2, (expire_pairs _ _).1]
        exact fun h => (List.length_filter_le _ _).trans h
      · rw [(expire_pairs _ _).2, (expire_pairs _ _).1]; exact id
    · rename_i hc
      refine (Forms.expireOrphans v? _ s).trans (Forms.setLists _ _ _ _ ?_ ?_ ?_)
      · intro _
        simp only [List.length_append, List.length_singleton, Config.leadCapacity] at hc ⊢
        omega
      · rw [(expire_pairs _ s).1]
        exact fun h => (List.length_filter_le _ _).trans h
      · rw [(expire_pairs _ s).1]; exact id

/-- A trail joins the orphans (R21). -/
theorem Forms.joinOrphans (v? : Option Vehicle) (h : Half) (x : Pulse) (leads : List Pulse) (s : State)
    (hl : (s.pairs.get h).leads.length ≤ 8 → leads.length ≤ 8) : Forms v? s (s.joinOrphans h x leads) := by
  unfold State.joinOrphans
  simp only
  split
  · rename_i hc
    refine (Forms.expireOrphans v? 1 s).trans (Forms.setLists _ _ _ _ ?_ ?_ ?_)
    · rw [(expire_pairs 1 s).1]; exact hl
    · rw [(expire_pairs 1 s).1]
      intro h4
      simp only [List.length_append, List.length_tail, List.length_singleton, Config.orphanCapacity] at hc ⊢
      omega
    · rw [(expire_pairs 1 s).1]; exact id
  · rename_i hc
    refine Forms.setLists _ _ _ _ hl ?_ id
    intro _
    simp only [List.length_append, List.length_singleton, Config.orphanCapacity] at hc ⊢
    omega

/-- A trail arrives (R21). -/
theorem Forms.trailArrival (v? : Option Vehicle) (h : Half) (x : Pulse) (s : State) :
    Forms v? s (s.trailArrival h x) := by
  unfold State.trailArrival
  simp only
  split
  · rename_i lead rest hk
    have hle : (lead :: rest).length ≤ (s.pairs.get h).leads.length := by
      rw [← hk]; exact List.length_filter_le _ _
    split
    · refine Forms.trans ?_ (Forms.combineHalf _ _ _)
      refine (Forms.expireLeads v? _ s).trans (Forms.setLists _ _ _ _ ?_ ?_ ?_)
      · rw [(expire_pairs _ s).2]
        intro h8
        simp only [List.length_cons] at hle ⊢
        omega
      · rw [(expire_pairs _ s).2]; exact id
      · rw [(expire_pairs _ s).2]; exact id
    · refine (Forms.expireLeads v? _ s).trans (Forms.joinOrphans _ _ _ _ _ ?_)
      rw [(expire_pairs _ s).2, hk]
      exact hle.trans
  · exact (Forms.expireLeads v? _ s).trans (Forms.joinOrphans _ _ _ _ _ (fun _ => Nat.zero_le _))

/-- The pulses of a sample instant reach their halves (R14). -/
theorem Forms.arrivals (v? : Option Vehicle) (l r : List Pulse) (s : State) : Forms v? s (s.arrivals l r) := by
  have one : ∀ (s : State) (x : Pulse), Forms v? s (s.pulseArrival x) := by
    intro s x
    unfold State.pulseArrival
    split
    · exact Forms.leadArrival _ _ _ _
    · exact Forms.trailArrival _ _ _ _
  unfold State.arrivals
  split
  · exact Forms.foldl _ _ one _ _
  · exact (Forms.drawn _ _).trans (Forms.foldl _ _ one _ _)

end Sys2Proof.Machine.Laws
end

