-- ==== Sys2Proof/Laws/Boundary.lean ====
section
/-! SUPPORT. What the boundary unit can do, said once: the nearest of a list, the vehicle of a number in its slot, the
test of the close of the closing vehicle, edge entries that resolve as unmatched, and axles that a yielder forwards. -/
namespace Sys2Proof.Machine.Laws
open Sys2Proof.Machine.Safety

/-! ## The nearest of a list -/

/-- The nearest of a list is none just for the empty list (R98, R99, R105). -/
theorem nearest_none {α} (d : α → Nat) (l : List α) : nearest d l = none ↔ l = [] := by
  cases l with
  | nil => simp [nearest]
  | cons a l => simp only [nearest]; split <;> (try split) <;> simp

/-- An entry nearer than every one before it, and no farther than any behind it, is the nearest (R98, R99, R105). -/
theorem nearest_split {α} (d : α → Nat) (b : List α) (e : α) (c : List α)
    (h1 : ∀ x ∈ b, d e < d x) (h2 : ∀ x ∈ c, d e ≤ d x) : nearest d (b ++ e :: c) = some e := by
  have mem : ∀ (l : List α) x, nearest d l = some x → x ∈ l := by
    intro l; induction l with
    | nil => intro x h; simp [nearest] at h
    | cons a l ih =>
      intro x h; simp only [nearest] at h
      split at h
      · simp at h; simp [h]
      · split at h <;> simp at h
        · simp [h]
        · subst h; rename_i hb _; exact List.mem_cons_of_mem _ (ih _ hb)
  induction b with
  | nil =>
    simp only [List.nil_append, nearest]
    split
    · rfl
    · rename_i x hx; rw [if_pos (h2 x (mem _ _ hx))]
  | cons a b ih =>
    have := ih (fun x hx => h1 x (List.mem_cons_of_mem _ hx))
    simp only [List.cons_append, nearest, this]
    rw [if_neg (by have := h1 a (List.mem_cons_self ..); omega)]

/-! ## The vehicle of a number -/

/-- The vehicle `v` stands in the slot `k`, where its number is looked up. -/
def StandsIn (k : Slot) (v : Vehicle) (s : State) : Prop := s.slotOf v.number = some k ∧ s.vehicleIn k = some v

theorem StandsIn.vehicle {k : Slot} {v : Vehicle} {s : State} (h : StandsIn k v s) : s.vehicle v.number = some v := by
  unfold State.vehicle; rw [h.1]; exact h.2

/-- A change of the vehicle of this number changes that slot. -/
theorem StandsIn.update {k : Slot} {v : Vehicle} {s : State} (h : StandsIn k v s) (f : Vehicle → Vehicle) :
    s.updateVehicle v.number f = s.setSlot k (some (f v)) := by
  unfold State.updateVehicle; rw [h.1]; simp only [h.2]; rfl

theorem StandsIn.of_slot {k : Slot} {v : Vehicle} {s : State}
    (h : match k with
      | .openSlot => s.assembler.openVehicle = some v
      | .closingSlot => s.assembler.closingVehicle = some v ∧
        ∀ w, s.assembler.openVehicle = some w → w.number ≠ v.number) :
    StandsIn k v s := by
  cases k
  · simp only at h
    exact ⟨by unfold State.slotOf; simp [h], h⟩
  · obtain ⟨h1, h2⟩ := h
    refine ⟨?_, h1⟩
    unfold State.slotOf
    rw [if_neg, h1]
    · simp
    · cases ho : s.assembler.openVehicle with
      | none => simp
      | some w => simpa using h2 w ho

theorem StandsIn.set {k : Slot} {v : Vehicle} {s : State} (h : StandsIn k v s) (w : Vehicle) (hw : w.number = v.number) :
    StandsIn k w (s.setSlot k (some w)) := by
  have h1 := h.1
  have h2 := h.2
  cases k
  · exact StandsIn.of_slot (k := .openSlot) rfl
  · apply StandsIn.of_slot (k := .closingSlot)
    refine ⟨rfl, ?_⟩
    intro x hx
    unfold State.slotOf at h1
    split at h1
    · cases h1
    · rename_i hn
      have : s.assembler.openVehicle = some x := hx
      rw [this] at hn; rw [hw]; simpa using hn

theorem StandsIn.congr {k : Slot} {v : Vehicle} {s t : State} (h : StandsIn k v s)
    (e1 : t.assembler.openVehicle = s.assembler.openVehicle)
    (e2 : t.assembler.closingVehicle = s.assembler.closingVehicle) : StandsIn k v t := by
  unfold StandsIn State.slotOf at *
  rw [e1, e2]
  refine ⟨h.1, ?_⟩
  rw [← h.2]; cases k <;> simp [State.vehicleIn, e1, e2]

/-! ## The close of the closing vehicle -/

/-- A vehicle has an edge axle awaiting a match just where the edge list holds an entry of its number (R73). -/
theorem hasEdge_iff (s : State) (n : Nat) : s.hasEdge n = true ↔ ∃ e ∈ s.boundary.edges, e.vehicle = n := by
  simp [State.hasEdge, State.edgesOf, List.filter_eq_nil_iff]

/-- The owner close: the gap due mark, and the yield-closed mark or PARTNER-LOST (R108). -/
theorem ownerCloseMet_iff (v : Vehicle) :
    v.ownerCloseMet = true ↔ v.gapDueMark = true ∧ (v.yieldClosed = true ∨ v.flags.partnerLost = true) := by
  simp [Vehicle.ownerCloseMet]

/-- With an empty closing slot the test of the close does nothing. -/
theorem closeTest_empty {s : State} (h : s.assembler.closingVehicle = none) : s.closeTest = s := by
  unfold State.closeTest; rw [h]

/-- The closing vehicle stays while it has an edge entry, or while the close of its status is not met (R109). -/
theorem closeTest_stays {s : State} {v : Vehicle} (h : s.assembler.closingVehicle = some v)
    (hs : s.hasEdge v.number = true ∨ v.pairing = .owner ∧ v.ownerCloseMet = false ∨
      v.pairing = .yielded ∧ v.gapDueMark = false) : s.closeTest = s := by
  unfold State.closeTest
  rw [h]
  rcases hs with hs | ⟨hp, hm⟩ | ⟨hp, hm⟩
  · simp only [hs, if_true]
  all_goals simp only [hp, hm, Bool.false_eq_true, if_false, ite_self]

/-- Without an edge entry an UNPAIRED vehicle, and an OWNER one whose close is met, leave it by completion (R109). -/
theorem closeTest_completes {s : State} {v : Vehicle} (h : s.assembler.closingVehicle = some v)
    (he : s.hasEdge v.number = false) (hp : v.pairing = .unpaired ∨ v.pairing = .owner ∧ v.ownerCloseMet = true) :
    s.closeTest = (s.setSlot .closingSlot none).complete v := by
  unfold State.closeTest
  rw [h]
  rcases hp with hp | ⟨hp, hm⟩ <;> simp [*]

/-- Without an edge entry a YIELDED vehicle with its gap due mark ends as yielded (R104, R109). -/
theorem closeTest_yields {s : State} {v : Vehicle} (h : s.assembler.closingVehicle = some v)
    (he : s.hasEdge v.number = false) (hp : v.pairing = .yielded) (hg : v.gapDueMark = true) :
    s.closeTest = (s.setSlot .closingSlot none).endYielded v := by
  unfold State.closeTest
  rw [h]
  simp [he, hp, hg]

/-! ## Edge entries that resolve -/

/-- An entry stays when none of the list is of its vehicle and axle. -/
def staysBeside (l : List EdgeEntry) (d : EdgeEntry) : Bool := !l.any (fun o => d.vehicle == o.vehicle && d.tag == o.tag)


theorem setSlot_same {k : Slot} {v : Vehicle} {s : State} (h : StandsIn k v s) : s.setSlot k (some v) = s := by
  have := h.2
  cases k
  · show ({ s with assembler := { s.assembler with openVehicle := some v } } : State) = s
    have : s.assembler.openVehicle = some v := this
    rw [← this]
  · show ({ s with assembler := { s.assembler with closingVehicle := some v } } : State) = s
    have : s.assembler.closingVehicle = some v := this
    rw [← this]

theorem setSlot_setSlot (k : Slot) (v w : Option Vehicle) (s : State) :
    (s.setSlot k v).setSlot k w = s.setSlot k w := by cases k <;> rfl

/-- The state with this edge list. -/
def withEdges (s : State) (l : List EdgeEntry) : State := { s with boundary := { s.boundary with edges := l } }

theorem dropEdge_eq (s : State) (e : EdgeEntry) :
    s.dropEdge e.vehicle e.tag = withEdges s (s.boundary.edges.filter (staysBeside [e])) := by
  have : (fun d : EdgeEntry => !(d.vehicle == e.vehicle && d.tag == e.tag)) = staysBeside [e] := by
    funext d; simp [staysBeside]
  unfold State.dropEdge withEdges
  rw [this]

theorem staysBeside_twice (e : EdgeEntry) (l m : List EdgeEntry) :
    (m.filter (staysBeside [e])).filter (staysBeside l) = m.filter (staysBeside (e :: l)) := by
  rw [List.filter_filter]; congr 1; funext d; unfold staysBeside; simp [Bool.and_comm]

theorem withEdges_nil (s : State) : withEdges s (s.boundary.edges.filter (staysBeside [])) = s := by
  unfold withEdges
  rw [show s.boundary.edges.filter (staysBeside []) = s.boundary.edges by rw [List.filter_eq_self]; intros; rfl]

/-- So many edge axles have been counted as unmatched (R100). -/
def countUnmatched (n : Nat) (s : State) : State := if n = 0 then s else s.bumpBy .edgesUnmatched n

theorem countUnmatched_succ (n : Nat) (s : State) :
    countUnmatched n (s.bump .edgesUnmatched) = countUnmatched (n + 1) s := by
  unfold countUnmatched
  by_cases h : n = 0
  · subst h; simp; rfl
  · rw [if_neg h, if_neg (by omega)]
    unfold State.bump State.bumpBy
    congr 1
    show (s.counters.set 6 _).set 6 _ = _
    have : (s.bumpBy .edgesUnmatched 1).counter .edgesUnmatched = min 65535 (s.counter .edgesUnmatched + 1) := by
      have := counter_bump s .edgesUnmatched .edgesUnmatched
      rw [if_pos rfl] at this; exact this
    show (s.counters.set 6 _).set 6 (min 65535 ((s.bumpBy .edgesUnmatched 1).counter .edgesUnmatched + n)) =
      s.counters.set 6 (min 65535 (s.counter .edgesUnmatched + (n + 1)))
    rw [this]
    ext i hi
    simp only [Vector.getElem_set]
    split
    · omega
    · rfl

/-- Several entries of a vehicle that is not YIELDED resolve: they leave the list, are counted, and the vehicle takes
EDGE-UNMATCHED (R100). -/
theorem resolveEdges_kept (l : List EdgeEntry) :
    ∀ (k : Slot) (v : Vehicle) (s : State), StandsIn k v s →
    v.pairing ≠ .yielded → (∀ e ∈ l, e.vehicle = v.number) →
    s.resolveEdges l = countUnmatched l.length ((withEdges s (s.boundary.edges.filter (staysBeside l))).setSlot k
      (some { v with flags := { v.flags with edgeUnmatched := v.flags.edgeUnmatched || !l.isEmpty } })) := by
  induction l with
  | nil =>
    intro k v s hv hp hl
    rw [withEdges_nil]
    simp [countUnmatched, State.resolveEdges]
    exact (setSlot_same hv).symm
  | cons e l ih =>
    intro k v s hv hp hl
    have he := hl e (List.mem_cons_self ..)
    show State.resolveEdges l (s.resolveEdge e) = _
    have h1 : s.resolveEdge e = ((withEdges s (s.boundary.edges.filter (staysBeside [e]))).setSlot k
        (some { v with flags := { v.flags with edgeUnmatched := true } })).bump .edgesUnmatched := by
      unfold State.resolveEdge
      rw [dropEdge_eq]
      have hd : StandsIn k v (withEdges s (s.boundary.edges.filter (staysBeside [e]))) := hv.congr rfl rfl
      simp only [he, hd.vehicle, hp, if_false, hd.update]
    have hs : StandsIn k { v with flags := { v.flags with edgeUnmatched := true } } (s.resolveEdge e) := by
      rw [h1]
      have hd : StandsIn k v (withEdges s (s.boundary.edges.filter (staysBeside [e]))) := hv.congr rfl rfl
      exact (hd.set { v with flags := { v.flags with edgeUnmatched := true } } rfl).congr rfl rfl
    rw [ih k { v with flags := { v.flags with edgeUnmatched := true } } _ hs hp
      (fun x hx => hl x (List.mem_cons_of_mem _ hx)), h1]
    simp only [List.length_cons, ← countUnmatched_succ]
    congr 1
    simp only [List.isEmpty_cons, Bool.not_false, Bool.or_true, Bool.true_or]
    have hk := staysBeside_twice e l s.boundary.edges
    generalize s.boundary.edges.filter (staysBeside [e]) = K at *
    cases k
    · show ((withEdges s (K.filter (staysBeside l))).setSlot .openSlot _).bump _ = _
      rw [hk]
    · show ((withEdges s (K.filter (staysBeside l))).setSlot .closingSlot _).bump _ = _
      rw [hk]

theorem produce_withEdges (b : Body) (s : State) (l : List EdgeEntry) :
    (withEdges s l).produce b = withEdges (s.produce b) l := by
  unfold State.produce State.enqueue
  simp only
  cases hst : s.control.station <;> simp [hst, withEdges] <;> split <;> rfl

theorem produce_setSlot (b : Body) (s : State) (k : Slot) (v : Option Vehicle) :
    (s.setSlot k v).produce b = (s.produce b).setSlot k v := by
  unfold State.produce State.enqueue
  cases k <;> simp only [State.setSlot] <;> cases s.control.station <;> simp <;> split <;> rfl

theorem produce_control (b : Body) (s : State) : (s.produce b).control = s.control := (Forms.produce none b s).control

theorem produce_assembler (b : Body) (s : State) : (s.produce b).assembler = s.assembler := by
  unfold State.produce State.enqueue
  cases s.control.station <;> simp only <;> split <;> rfl

/-- The TRANSFER of an axle (R103). -/
def transferOf (peer number : Nat) (a : Axle) : Body := Body.transfer peer number a.time a.speed
      (a.left.map HalfLoad.load) (a.right.map HalfLoad.load) a.index a.saturated a.mismatch

/-- The TRANSFER frames of these axles are queued, one after the other. -/
def sends (v : Vehicle) (l : List Axle) (s : State) : State :=
  l.foldl (fun t a => t.produce (transferOf v.peer v.peerVehicle a)) s

theorem sends_withEdges (v : Vehicle) (l : List Axle) :
    ∀ s M, withEdges (sends v l s) M = sends v l (withEdges s M) := by
  induction l with
  | nil => intro s M; rfl
  | cons a l ih => intro s M; show withEdges (sends v l _) M = sends v l _; rw [ih, ← produce_withEdges]

theorem sends_setSlot (v : Vehicle) (l : List Axle) :
    ∀ s k w, (sends v l s).setSlot k w = sends v l (s.setSlot k w) := by
  induction l with
  | nil => intro s k w; rfl
  | cons a l ih => intro s k w; show (sends v l _).setSlot k w = sends v l _; rw [ih, ← produce_setSlot]

/-- The vehicle with so many more transfers forwarded. -/
def forwardedMore (v : Vehicle) (n : Nat) : Vehicle := { v with forwarded := v.forwarded + n }

/-- A forwarded axle in RUNNING: counted, and its TRANSFER queued (R103). -/
theorem forward_run {k : Slot} {v : Vehicle} {s : State} (h : StandsIn k v s) (hr : s.control.station = .running)
    (a : Axle) :
    s.forwardAxle v.number a = (s.setSlot k (some (forwardedMore v 1))).produce (transferOf v.peer v.peerVehicle a) := by
  unfold State.forwardAxle; rw [hr, h.vehicle]; simp only [h.update]; rfl

/-- In any other station state nothing is forwarded (R103). -/
theorem forward_mute {s : State} (hr : s.control.station ≠ .running) (n : Nat) (a : Axle) : s.forwardAxle n a = s := by
  unfold State.forwardAxle
  split
  · rename_i h _; exact (hr h).elim
  · rfl

/-- Several axles of a vehicle forwarded in RUNNING (R103). -/
theorem forwards_run (l : List Axle) :
    ∀ (k : Slot) (v : Vehicle) (s : State), StandsIn k v s → s.control.station = .running →
    l.foldl (fun s a => s.forwardAxle v.number a) s = sends v l (s.setSlot k (some (forwardedMore v l.length))) := by
  induction l with
  | nil => intro k v s h hr; exact (setSlot_same h).symm
  | cons a l ih =>
    intro k v s h hr
    show l.foldl (fun s a => s.forwardAxle v.number a) (s.forwardAxle v.number a) = _
    have h1 := forward_run h hr a
    have hs : StandsIn k (forwardedMore v 1) (s.forwardAxle v.number a) := by
      rw [h1]
      exact StandsIn.congr (h.set (forwardedMore v 1) rfl) (by rw [produce_assembler]) (by rw [produce_assembler])
    have hc : (s.forwardAxle v.number a).control.station = .running := by
      rw [h1, produce_control]; cases k <;> exact hr
    have := ih k (forwardedMore v 1) _ hs hc
    have e : (forwardedMore v 1).number = v.number := rfl
    rw [e] at this
    rw [this, h1, ← produce_setSlot, setSlot_setSlot]
    have : forwardedMore (forwardedMore v 1) l.length = forwardedMore v (l.length + 1) := by
      unfold forwardedMore; simp; omega
    rw [this]; rfl

/-- Several entries of a YIELDED vehicle resolve in RUNNING: they leave the list, and their axles are forwarded in its order
(R100, R103). -/
theorem resolveEdges_yielded (l : List EdgeEntry) :
    ∀ (k : Slot) (v : Vehicle) (s : State), StandsIn k v s →
    v.pairing = .yielded → (∀ e ∈ l, e.vehicle = v.number) →
    s.control.station = .running →
    s.resolveEdges l = sends v (l.filterMap (fun d => v.axles.find? (fun a => a.tag == d.tag)))
      ((withEdges s (s.boundary.edges.filter (staysBeside l))).setSlot k
        (some (forwardedMore v (l.filterMap (fun d => v.axles.find? (fun a => a.tag == d.tag))).length))) := by
  induction l with
  | nil =>
    intro k v s hv hp hl hr
    rw [withEdges_nil]
    exact (setSlot_same hv).symm
  | cons e l ih =>
    intro k v s hv hp hl hr
    have he := hl e (List.mem_cons_self ..)
    show State.resolveEdges l (s.resolveEdge e) = _
    have hd : StandsIn k v (withEdges s (s.boundary.edges.filter (staysBeside [e]))) := hv.congr rfl rfl
    cases hf : v.axles.find? (fun a => a.tag == e.tag) with
    | none =>
      have h1 : s.resolveEdge e = withEdges s (s.boundary.edges.filter (staysBeside [e])) := by
        unfold State.resolveEdge
        rw [dropEdge_eq]
        simp only [he, hd.vehicle, hp, if_true, hf]
      rw [h1, ih k v _ hd hp (fun x hx => hl x (List.mem_cons_of_mem _ hx)) hr]
      rw [List.filterMap_cons_none (f := fun d : EdgeEntry => v.axles.find? (fun a => a.tag == d.tag)) hf]
      show sends v _ ((withEdges s ((s.boundary.edges.filter (staysBeside [e])).filter (staysBeside l))).setSlot k _) = _
      rw [staysBeside_twice]
    | some a =>
      have h1 : s.resolveEdge e = ((withEdges s (s.boundary.edges.filter (staysBeside [e]))).setSlot k
          (some (forwardedMore v 1))).produce (transferOf v.peer v.peerVehicle a) := by
        unfold State.resolveEdge
        rw [dropEdge_eq]
        simp only [he, hd.vehicle, hp, if_true, hf]
        exact forward_run hd hr a
      have hs : StandsIn k (forwardedMore v 1) (s.resolveEdge e) := by
        rw [h1]
        exact StandsIn.congr (hd.set (forwardedMore v 1) rfl) (by rw [produce_assembler]) (by rw [produce_assembler])
      have hc : (s.resolveEdge e).control.station = .running := by
        rw [h1, produce_control]; cases k <;> exact hr
      have hb : (s.resolveEdge e).boundary.edges = s.boundary.edges.filter (staysBeside [e]) := by
        rw [h1, produce_boundary]; cases k <;> rfl
      have := ih k (forwardedMore v 1) _ hs hp (fun x hx => hl x (List.mem_cons_of_mem _ hx)) hc
      rw [this, List.filterMap_cons_some (f := fun d : EdgeEntry => v.axles.find? (fun a => a.tag == d.tag)) hf, hb,
        staysBeside_twice]
      have e1 : (forwardedMore v 1).axles = v.axles := rfl
      simp only [e1]
      generalize List.filterMap (fun d : EdgeEntry => v.axles.find? (fun a => a.tag == d.tag)) l = L
      have e2 : forwardedMore (forwardedMore v 1) L.length = forwardedMore v (a :: L).length := by
        unfold forwardedMore; simp; omega
      rw [e2, h1, ← produce_withEdges, ← produce_setSlot]
      show sends v L (State.produce (transferOf v.peer v.peerVehicle a) _) =
        sends v L (State.produce (transferOf v.peer v.peerVehicle a) _)
      congr 2
      cases k <;> rfl

/-- Several entries of a YIELDED vehicle resolve in MUTE: they leave the list, and nothing is forwarded (R100, R103). -/
theorem resolveEdges_mute (l : List EdgeEntry) :
    ∀ (k : Slot) (v : Vehicle) (s : State), StandsIn k v s →
    v.pairing = .yielded → (∀ e ∈ l, e.vehicle = v.number) →
    s.control.station = .mute .fromRunning →
    s.resolveEdges l = withEdges s (s.boundary.edges.filter (staysBeside l)) := by
  induction l with
  | nil =>
    intro k v s hv hp hl hr
    exact (withEdges_nil s).symm
  | cons e l ih =>
    intro k v s hv hp hl hr
    have he := hl e (List.mem_cons_self ..)
    show State.resolveEdges l (s.resolveEdge e) = _
    have hd : StandsIn k v (withEdges s (s.boundary.edges.filter (staysBeside [e]))) := hv.congr rfl rfl
    have h1 : s.resolveEdge e = withEdges s (s.boundary.edges.filter (staysBeside [e])) := by
      unfold State.resolveEdge
      rw [dropEdge_eq]
      simp only [he, hd.vehicle, hp, if_true]
      split
      · apply forward_mute; intro h; have h : s.control.station = .running := h; rw [hr] at h; cases h
      · rfl
    rw [h1, ih k v _ hd hp (fun x hx => hl x (List.mem_cons_of_mem _ hx)) hr]
    show withEdges s ((s.boundary.edges.filter (staysBeside [e])).filter (staysBeside l)) = _
    rw [staysBeside_twice]

end Sys2Proof.Machine.Laws
end

