-- ==== Sys2Proof/Laws/Assembly.lean ====
section
/-! SUPPORT. What the assembler does with an admitted axle, said once: what follows its placement, when it fills no
transferred axle, how the open vehicle ends, and that no end issues a number. -/
namespace Sys2Proof.Machine.Laws
open Sys2Proof.Machine.Safety

/-! ## Placing an axle -/

/-- The axle of an observation is loaded with the values that its vehicle latched (R43). -/
theorem loadedAxle_eq (p : Params) (v : Vehicle) (index : Nat) (o : Observation) :
    loadedAxle p v index o = loadedWith p v.latched.factor v.correction v.nextTag index o := rfl

/-- The half that makes an axle an edge axle (R90). -/
theorem edgeHalf_iff (p : Params) (a : Axle) (v : Vehicle) (h : Half) (l : HalfLoad) :
    v.edgeHalf p a = some (h, l) ↔
      (match h with
        | .left => a.left = some l ∧ a.right = none
        | .right => a.right = some l ∧ a.left = none) ∧
      a.direction = .forward ∧ p.neighbour.get h ≠ 0 ∧ v.flags.partnerLost = false ∧
      (v.pairing = .unpaired ∨ v.pairing = .owner ∧ p.neighbour.get h = v.peer) := by
  unfold Vehicle.edgeHalf Axle.loneHalf
  cases hl : a.left <;> cases hr : a.right <;> cases h <;> simp <;> grind

/-- What follows the placement of an axle in the open vehicle (R90, R103). -/
theorem afterPlacement_places {s : State} {v : Vehicle} (h : s.assembler.openVehicle = some v) (a : Axle) :
    AfterPlacing v a s (s.afterPlacement a) := by
  have hv : StandsIn .openSlot v s := StandsIn.of_slot (k := .openSlot) h
  have unpairedEdge : ∀ h l, v.edgeHalf s.control.params a = some (h, l) → v.pairing ≠ .yielded := by
    intro h l he hy
    have := ((edgeHalf_iff _ _ _ _ _).1 he).2.2.2.2
    simp [hy] at this
  unfold State.afterPlacement AfterPlacing
  rw [h]
  refine ⟨fun hp hn => ?_, fun k l hk => ?_, fun hp hr => ?_, fun hp hr => ?_⟩
  · simp only [hp, if_false]
    cases he : v.edgeHalf s.control.params a with
    | none => rfl
    | some x => exact absurd ((edgeHalf_iff _ _ _ _ _).1 he) (hn x.1 x.2)
  · have he := (edgeHalf_iff _ _ _ _ _).2 hk
    simp only [unpairedEdge _ _ he, if_false, he]
  · simp only
    rw [if_pos hp]
    exact forward_run hv hr a
  · simp only
    rw [if_pos hp]
    exact forward_mute (by rw [hr]; simp) _ _

/-- An observation that stands alone fills no transferred axle (R106). -/
theorem localMergeTarget_none {p : Params} {o : Observation} {v : Vehicle} (hs : Sided o) (ha : StandsAlone p o v) :
    v.localMergeTarget p o = none := by
  unfold Vehicle.localMergeTarget
  cases hx : o.loneHalf with
  | none => rfl
  | some x =>
    simp only
    split
    · rename_i hc
      have := ha hc.1 hc.2.1 hc.2.2
      rw [Option.map_eq_none_iff, nearest_none, List.filter_eq_nil_iff]
      intro b hb hf
      have hb := this b hb
      have e1 := hs.2.1
      have e2 := hs.2.2
      simp only [State.withinK, sdiff, Bool.and_eq_true, decide_eq_true_eq] at hf
      obtain ⟨hk, hm⟩ := hf
      have hb := hb hk
      unfold Axle.loneHalf at hm
      unfold Observation.loneHalf at hx
      cases hl : o.left <;> cases hr : o.right <;> cases hbl : b.left <;> cases hbr : b.right <;>
        simp_all [Half.other]
    · rfl

/-! ## The end of the open vehicle -/

/-- An open vehicle that is held when it ends enters the closing slot (R73). -/
theorem endOpen_holds {s : State} {v : Vehicle} (h : s.assembler.openVehicle = some v)
    (hh : s.hasEdge v.number = true ∨ v.pairing = .owner ∧ v.ownerCloseMet = false ∨
      v.pairing = .yielded ∧ v.gapDueMark = false) :
    s.endOpen = (s.setSlot .openSlot none).enterClosing v := by
  have he : (s.setSlot .openSlot none).hasEdge v.number = s.hasEdge v.number := rfl
  unfold State.endOpen
  rw [h]
  cases hp : v.pairing <;> simp_all
  all_goals rcases hh with hh | hh <;> simp [hh]

/-- An open vehicle that is not YIELDED and not held completes when it ends (R73). -/
theorem endOpen_completes {s : State} {v : Vehicle} (h : s.assembler.openVehicle = some v)
    (he : s.hasEdge v.number = false) (hp : v.pairing ≠ .yielded) (ho : v.pairing = .owner → v.ownerCloseMet = true) :
    s.endOpen = (s.setSlot .openSlot none).complete v := by
  have he' : (s.setSlot .openSlot none).hasEdge v.number = false := he
  unfold State.endOpen
  rw [h]
  cases hc : v.pairing <;> simp_all

/-- An open YIELDED vehicle that is not held ends as yielded (R73, R104). -/
theorem endOpen_yields {s : State} {v : Vehicle} (h : s.assembler.openVehicle = some v)
    (he : s.hasEdge v.number = false) (hp : v.pairing = .yielded) (hg : v.gapDueMark = true) :
    s.endOpen = (s.setSlot .openSlot none).endYielded v := by
  have he' : (s.setSlot .openSlot none).hasEdge v.number = false := he
  unfold State.endOpen
  rw [h]
  simp_all

/-- A vehicle enters an empty closing slot without more (R70). -/
theorem enterClosing_empty {s : State} (h : s.assembler.closingVehicle = none) (v : Vehicle) :
    s.enterClosing v = s.setSlot .closingSlot (some v) := by
  unfold State.enterClosing; rw [h]

/-! ## Numbers -/

theorem setSlot_lastNumber (k : Slot) (v : Option Vehicle) (s : State) :
    (s.setSlot k v).assembler.lastNumber = s.assembler.lastNumber := by
  cases k <;> rfl

theorem updateVehicle_lastNumber (n : Nat) (f : Vehicle → Vehicle) (s : State) :
    (s.updateVehicle n f).assembler.lastNumber = s.assembler.lastNumber := by
  unfold State.updateVehicle; split <;> first | exact setSlot_lastNumber _ _ _ | rfl

theorem resolveEdge_lastNumber (e : EdgeEntry) (s : State) :
    (s.resolveEdge e).assembler.lastNumber = s.assembler.lastNumber := by
  have forward : ∀ n a (t : State), (t.forwardAxle n a).assembler.lastNumber = t.assembler.lastNumber := by
    intro n a t
    unfold State.forwardAxle
    split
    · rw [produce_assembler, updateVehicle_lastNumber]
    · rfl
  unfold State.resolveEdge
  simp only
  split
  · rfl
  · split
    · split
      · exact forward _ _ _
      · rfl
    · exact updateVehicle_lastNumber _ _ _

/-- The completion operation leaves the assembler alone (R84, R85). -/
theorem complete_assembler (v : Vehicle) (s : State) : (s.complete v).assembler = s.assembler := by
  unfold State.complete State.takeVerdict State.driftStage State.scheduleTrigger
  simp only
  rw [produce_assembler]
  repeat' split
  all_goals rfl

/-- The end of the open vehicle issues no number (R71). -/
theorem endOpen_lastNumber (s : State) : s.endOpen.assembler.lastNumber = s.assembler.lastNumber := by
  have yields : ∀ (v : Vehicle) (t : State), (t.endYielded v).assembler.lastNumber = t.assembler.lastNumber :=
    fun v t => congrArg Assembler.lastNumber (produce_assembler _ t)
  have resolves : ∀ (l : List EdgeEntry) (t : State),
      (t.resolveEdges l).assembler.lastNumber = t.assembler.lastNumber := by
    intro l
    induction l with
    | nil => exact fun _ => rfl
    | cons e l ih => exact fun t => (ih _).trans (resolveEdge_lastNumber e t)
  have enters : ∀ (v : Vehicle) (t : State), (t.enterClosing v).assembler.lastNumber = t.assembler.lastNumber := by
    intro v t
    unfold State.enterClosing State.endEarlier
    rw [setSlot_lastNumber]
    simp only
    repeat' split
    all_goals simp only [complete_assembler, yields, setSlot_lastNumber, resolves]
  unfold State.endOpen
  simp only
  repeat' split
  all_goals simp only [complete_assembler, yields, enters, setSlot_lastNumber]

end Sys2Proof.Machine.Laws
end

