-- ==== Sys2Proof/Laws/Pairing.lean ====
section
/-! SUPPORT. No operation on axles and vehicles touches the pairing unit, and an admission empties just the slots from which
it releases a half. -/
namespace Sys2Proof.Machine.Laws
open Sys2Proof.Machine.Safety

theorem enqueue_pairs (b : Body) (s : State) : (s.enqueue b).pairs = s.pairs := by
  unfold State.enqueue; simp only; split <;> rfl

theorem produce_pairs (b : Body) (s : State) : (s.produce b).pairs = s.pairs := by
  unfold State.produce; split <;> first | exact enqueue_pairs _ _ | rfl

theorem setSlot_pairs (k : Slot) (v : Option Vehicle) (s : State) : (s.setSlot k v).pairs = s.pairs := by
  cases k <;> rfl

theorem updateVehicle_pairs (n : Nat) (f : Vehicle → Vehicle) (s : State) : (s.updateVehicle n f).pairs = s.pairs := by
  unfold State.updateVehicle; split <;> first | exact setSlot_pairs _ _ _ | rfl

theorem forwardAxle_pairs (n : Nat) (a : Axle) (s : State) : (s.forwardAxle n a).pairs = s.pairs := by
  unfold State.forwardAxle
  split
  · rw [produce_pairs, updateVehicle_pairs]
  · rfl

theorem resolveEdge_pairs (e : EdgeEntry) (s : State) : (s.resolveEdge e).pairs = s.pairs := by
  unfold State.resolveEdge
  simp only
  split
  · rfl
  · split
    · split
      · exact forwardAxle_pairs _ _ _
      · rfl
    · exact updateVehicle_pairs _ _ _

theorem foldl_pairs {α : Type} (f : State → α → State) (hf : ∀ s a, (f s a).pairs = s.pairs) (l : List α) :
    ∀ s : State, (l.foldl f s).pairs = s.pairs := by
  induction l with
  | nil => exact fun _ => rfl
  | cons a l ih => exact fun s => (ih _).trans (hf s a)

theorem scheduleTrigger_pairs (v : Vehicle) (f : Flags) (r : Verdict) (s : State) :
    (s.scheduleTrigger v f r).2.pairs = s.pairs := by
  unfold State.scheduleTrigger
  repeat' split
  all_goals rfl

theorem driftStage_pairs (v : Vehicle) (f : Flags) (c : Nat) (sm : Summary) (s : State) :
    (s.driftStage v f c sm).pairs = s.pairs := by
  unfold State.driftStage; split <;> rfl

theorem complete_pairs (v : Vehicle) (s : State) : (s.complete v).pairs = s.pairs := by
  unfold State.complete
  simp only
  rw [produce_pairs]
  simp only [State.bump, bumpBy_pairs, driftStage_pairs, takeVerdict_pairs, scheduleTrigger_pairs]

theorem endYielded_pairs (v : Vehicle) (s : State) : (s.endYielded v).pairs = s.pairs := produce_pairs _ _

theorem closeTest_pairs (s : State) : s.closeTest.pairs = s.pairs := by
  unfold State.closeTest
  repeat' split
  all_goals first | rfl | rw [complete_pairs, setSlot_pairs] | rw [endYielded_pairs, setSlot_pairs]

theorem resolveEdges_pairs (l : List EdgeEntry) (s : State) : (s.resolveEdges l).pairs = s.pairs :=
  foldl_pairs _ (fun s e => resolveEdge_pairs e s) l s

theorem enterClosing_pairs (v : Vehicle) (s : State) : (s.enterClosing v).pairs = s.pairs := by
  unfold State.enterClosing State.endEarlier
  rw [setSlot_pairs]
  simp only
  repeat' split
  all_goals first
    | rfl
    | exact resolveEdges_pairs _ _
    | rw [complete_pairs, setSlot_pairs, resolveEdges_pairs]
    | rw [endYielded_pairs, setSlot_pairs, resolveEdges_pairs]

theorem endOpen_pairs (s : State) : s.endOpen.pairs = s.pairs := by
  unfold State.endOpen
  simp only
  repeat' split
  all_goals first
    | rfl
    | rw [enterClosing_pairs, setSlot_pairs]
    | rw [complete_pairs, setSlot_pairs]
    | rw [endYielded_pairs, setSlot_pairs]

theorem makeMatch_pairs (e : EdgeEntry) (n : RemoteNotice) (s : State) : (s.makeMatch e n).pairs = s.pairs := by
  unfold State.makeMatch
  simp only
  repeat' split
  · rfl
  · exact updateVehicle_pairs _ _ _
  · rfl
  · exact (updateVehicle_pairs _ _ _).trans ((resolveEdges_pairs _ _).trans (updateVehicle_pairs _ _ _))
  · exact (foldl_pairs _ (fun s a => forwardAxle_pairs _ a s) _ _).trans
      ((resolveEdges_pairs _ _).trans (updateVehicle_pairs _ _ _))

theorem admitEdge_pairs (v : Vehicle) (a : Axle) (h : Half) (l : HalfLoad) (s : State) :
    (s.admitEdge v a h l).pairs = s.pairs := by
  have room : s.edgeRoom.pairs = s.pairs := by
    unfold State.edgeRoom
    repeat' split
    all_goals first | rfl | rw [closeTest_pairs, resolveEdge_pairs]
  unfold State.admitEdge
  simp only
  split
  · rw [produce_pairs]; exact room
  · rw [closeTest_pairs, makeMatch_pairs]
    exact (produce_pairs _ _).trans room

theorem placeOpen_pairs (n : Nat) (latest : Bool) (o : Observation) (v : Vehicle) (s : State) :
    (s.placeOpen n latest o v).pairs = s.pairs := by
  unfold State.placeOpen State.afterPlacement
  simp only
  repeat' split
  all_goals first
    | rw [setSlot_pairs]
    | rw [forwardAxle_pairs, setSlot_pairs]
    | rw [admitEdge_pairs, setSlot_pairs]

/-- An admission leaves the pairing unit alone (R32). -/
theorem admitAxle_pairs (o : Observation) (s : State) : (s.admitAxle o).pairs = s.pairs := by
  have opens : ∀ (o : Observation) (c : Bool) (s : State), (s.openWith o c).pairs = s.pairs :=
    fun _ _ _ => placeOpen_pairs _ _ _ _ _
  unfold State.admitAxle State.placeAxle
  repeat' split
  · exact opens _ _ _
  · exact setSlot_pairs _ _ _
  · exact placeOpen_pairs _ _ _ _ _
  · rw [opens, endOpen_pairs]; rfl
  · rw [opens, endOpen_pairs]; rfl
  · unfold State.placeLate
    simp only
    split
    · exact placeOpen_pairs _ _ _ _ _
    · rfl

/-- An admission by R29 empties the slots in which a half waits with an earlier lead time, and no other. -/
theorem admitOrdered_pairs (o : Observation) (s : State) (h : Half) :
    (s.admitOrdered o).pairs.get h =
      if (s.waitingBefore h o.time).isSome then { s.pairs.get h with slot := none } else s.pairs.get h := by
  unfold State.admitOrdered
  simp only
  repeat' split
  all_goals cases h <;> simp_all [admitAxle_pairs, PerHalf.get, PerHalf.set]

end Sys2Proof.Machine.Laws
end

