-- ==== Sys2Proof/Tests/Slice0.lean ====
section
/-! SUPPORT. Tests on single commands and operations, with the worked sequences of the manual as their source, and for
every statement with hypotheses a concrete state that meets them. -/
namespace Sys2Proof.Tests
open Sys2Proof.Machine Sys2Proof.Machine.Safety

set_option Elab.async false

/-! ## Helpers -/

/-- The state after one command. -/
def after (c : Instr) (s : State) : State :=
  match exec c s with
  | .next t => t
  | _ => s

/-- A site as in the worked sequences of chapters 02, 03, 06 and 09. -/
def site : Params :=
  { Params.unprepared with
    lane := 2, neighbour := ⟨3, 5⟩, spacing := 3000, gain := ⟨268173, 280000, 275000, 276000⟩
    threshold := ⟨3, 3, 3, 3⟩, maxPulse := 4096, skew := 256, mismatchPct := 20, filterShift := 2, jump := 30
    holdOwn := 60, freshAge := 60, disagree := 40, holdEff := 600, noticePeriod := 10
    curve := [⟨200, 16384⟩, ⟨400, 15565⟩], tempBase := -300, bandWidth := 150, maxSpacing := 6000
    unsteadyPct := 20, edgeWait := 500, matchWindow := 200, speedPct := 5, yieldHold := 1000
    siteAxleLimit := 11500, siteGrossLimit := 44000, tolerance := 5, screenSpeed := 5000, refClass := 41
    nominal := 6100, samples := 16, maxStep := 16, refSpeed := (1000, 70000), refGross := (0, 786420)
    pulseWidth := 20, pulseGap := 30, statusPeriod := 60 }

/-- A bit whose three samples agree. -/
def bit (b : Bool) : BitSamples := ⟨b, b, b⟩

/-- A character sampled without noise: its mark bit, its data byte and its stop bit. -/
def char (mark : Bool) (data : Byte) (stop : Bool) : LineCharacter :=
  { start := bit false, data := Vector.ofFn (fun i : Fin 8 => bit (data.getMsbD i)), mark := bit mark
    stop := bit stop }

/-- Station 4 in RUNNING at a local time, with these parameters. -/
def running (p : Params) (now : LocalTime) : State :=
  { State.reset with
    localTime := now
    control := { State.reset.control with
      station := .running, number := 4, image := .good, params := p, causes := ⟨false, false, false⟩ }
    link := { State.reset.link with monitor := .idle, receiver := .ready } }

/-- The station at an even local time. -/
def base : State := running site 4000000

/-- The state with one frame in the receive queue. -/
def got (k : Kind) (source : Nat) (payload : List Byte) (s : State) : State :=
  { s with link := { s.link with
      receiveQueue := [{ kind := k, source := source, payload := payload, stamp := s.localTime - 4 }] } }

/-- The state with a vehicle in the open slot. -/
def withOpen (v : Vehicle) (s : State) : State :=
  { s with assembler := { s.assembler with openVehicle := some v } }

/-- The state with a vehicle in the closing slot. -/
def withClosing (v : Vehicle) (s : State) : State :=
  { s with assembler := { s.assembler with closingVehicle := some v } }

/-- A half load without marks. -/
def loadOf (kg : Nat) : HalfLoad := { load := kg, saturated := false, mismatch := false, remote := false }

/-- Axle A2 of the lane change of chapter 06: its RIGHT half alone. -/
def edgeAxle : Axle :=
  { tag := 0, index := 2, time := 3004096, speed := 19996, direction := .forward, left := none
    right := some (loadOf 3100) }

/-- Vehicle 311 of chapter 06 with one axle. -/
def lorry (a : Axle) : Vehicle :=
  { number := 311, pairing := .unpaired, peer := 0, peerVehicle := 0, yieldClosed := false, received := 0
    forwarded := 0, holdDue := none, direction := .forward
    latched := { temp := 314, source := .own, factor := 15918, band := 4 }, correction := 4137
    axles := [a], nextTag := 1, lastTime := a.time, lastSpeed := a.speed, separation := none
    gapDue := later a.time 7374, gapDueMark := false, flags := Flags.none }

/-- The entry of axle A2 in the edge list. -/
def edgeEntry : EdgeEntry :=
  { side := .right, vehicle := 311, tag := 0, time := 3004096, speed := 19996, load := 3100, index := 2
    saturated := false, mismatch := false, joined := 3010908 }

/-- The state with axle A2 waiting in the edge list. -/
def withEdge (s : State) : State := { s with boundary := { s.boundary with edges := [edgeEntry] } }

/-! ## Well-formed commands -/

theorem test_short_image_ill_formed :
    (Instr.memoryReady (List.replicate 4095 0) (List.replicate 36 0)).wellFormed = false := by decide +kernel

theorem test_short_correction_ill_formed :
    (Instr.memoryReady (List.replicate 4096 0) (List.replicate 35 0)).wellFormed = false := by decide +kernel

theorem test_whole_memory_well_formed :
    (Instr.memoryReady (List.replicate 4096 0) (List.replicate 36 0)).wellFormed = true := by decide +kernel

theorem test_long_read_back_ill_formed : (Instr.verify (List.replicate 37 0)).wellFormed = false := by decide

theorem test_old_edge_ill_formed :
    (Instr.receiveCharacter (char true 0 true) 3).wellFormed = false ∧
      (Instr.receiveCharacter (char true 0 true) 2).wellFormed = true := by decide

theorem test_no_word_spells_a_command :
    decodeTableWord 32 0 = none ∧ State.reset.withFetchWord 32 0 = State.reset := by decide +kernel

/-! ## Channels (01) -/

/-- The channel LL of chapter 01 before sample 1000. -/
def channelLL : Channel := { Channel.reset with baseline := some 3200 }

/-- The samples 1000 to 1011 of the first worked sequence of chapter 01, on threshold code 3. -/
def wheel (n : Nat) : Channel × Detection :=
  ([2412, 5012, 9012, 14012, 12012, 812, -138, 3012, 1512, 612, 212, -28] : List Int).zipIdx.foldl
    (fun r x => if x.2 < n then detect 2048 1024 2048 (BitVec.ofNat 31 (1000 + x.2)) x.1 r.1 else r)
    (channelLL, .nothing)

theorem test_wheel_dips_and_rises :
    (wheel 7).1 = { channelLL with
      detector := .tail, count := 2, area := 42400, tailSum := 800, start := some 1000
      tentativeEnd := some 1004 } ∧
    (wheel 8).1.area = 46200 := by decide +kernel

theorem test_wheel_gives_its_pulse :
    wheel 12 = (channelLL, .pulse 2008 47700 false) := by decide +kernel

theorem test_baseline_steps_down :
    (detect 2048 1024 2048 1012 12 channelLL).1.baseline = some 3199 := by decide

/-- The second worked sequence: at sample 5256 the duration is 257, and the pulse is abandoned. -/
theorem test_standing_wheel_is_abandoned :
    let c := { Channel.reset with
      baseline := some 0, detector := .pulse, count := 3, area := 5140000, start := some 5000 }
    (detect 4096 2048 256 5255 20000 c).1.area = 5160000 ∧
      detect 4096 2048 256 5256 20000 c =
        ({ Channel.reset with baseline := some 0, detector := .held }, .overlong) := by decide

/-! ## Axles (02) -/

theorem test_windows_at_3000 : site.intervalMin = 703 ∧ site.intervalMax = 49152 := by decide

/-- A pulse of channel LL or TL. -/
def pulse (chan : Chan) (time : LocalTime) (area : Nat) : Pulse :=
  { chan := chan, time := time, area := area, saturated := false }

theorem test_speeds_of_chapter_02 :
    (formHalfAxle site .left .forward (pulse .ll 225800 1) (pulse .tl 252576 1)).speed = 1835 ∧
      (formHalfAxle site .left .forward (pulse .ll 200000 1) (pulse .tl 201966 1)).speed = 25001 := by decide

/-- The lead pulse of chapter 01 completes at its last sample together with a trail of its half that began `early` samples
before it. -/
def together (early : Nat) : State :=
  let c := (wheel 11).1
  { running { site with threshold := ⟨3, 3, 3, 3⟩ } 2022 with channels :=
    { ll := c, lr := channelLL, tr := channelLL
      tl := { c with start := some (BitVec.ofNat 31 (1000 - early)) } } }

/-- R24: at one sample instant the trail comes before the lead. A trail that precedes its lead by 703 half-ticks or more
pairs with it, in reverse; one that precedes it by less waits as an orphan beside it. -/
theorem test_trail_before_lead_of_one_sample :
    let t := fun (early : Nat) => after (.sample (-28) 12 (-28) 12 false) (together early)
    ((t 703).pairs.left.slot.map (fun h => (h.direction, h.interval))) = some (.reverse, 703) ∧
      (t 702).pairs.left.slot = none ∧ (t 702).pairs.left.leads.map Pulse.time = [2008] ∧
      (t 702).pairs.left.orphans.map Pulse.time = [1306] := by decide +kernel

/-- The state with pending leads on the LEFT half. -/
def withLeads (l : List Pulse) (s : State) : State :=
  { s with pairs := { s.pairs with left := { s.pairs.left with leads := l } } }

/-- L4 of chapter 02 does not expire at 281,250 and expires at 281,252. -/
theorem test_lead_expires_by_age :
    let s := fun (now : LocalTime) => withOpen (lorry edgeAxle) (withLeads [pulse .ll 228000 1] (running site now))
    (after (.leadExpiryByAge .left) (s 281250)).pairs.left.leads.length = 1 ∧
      (after (.leadExpiryByAge .left) (s 281252)).pairs.left.leads = [] ∧
      ((after (.leadExpiryByAge .left) (s 281252)).assembler.openVehicle.map
        (fun v => v.flags.incomplete)) = some true := by decide +kernel

theorem test_orphan_expires_by_age :
    let s := fun (now : LocalTime) =>
      { running site now with pairs := { State.reset.pairs with
          right := { State.reset.pairs.right with orphans := [pulse .tr 228000 1] } } }
    (after (.orphanExpiryByAge .right) (s 281250)).pairs.right.orphans.length = 1 ∧
      after (.orphanExpiryByAge .right) (s 281252) =
        { s 281252 with pairs := State.reset.pairs, counters := counted 1 (s 281252).counters } := by
  decide +kernel

/-- A half-axle of the second worked sequence of chapter 02. -/
def half (h : Half) (lead : LocalTime) : HalfAxle :=
  { half := h, direction := .forward, leadTime := lead, trailTime := lead + 1966, interval := 1966
    speed := 25001, leadArea := 820000, trailArea := 800000, saturated := false }

/-- L3 and R3 of chapter 02 combine at 501,707. -/
theorem test_mates_of_chapter_02 :
    (HalfAxle.combine (half .right 501710) (half .left 501704)).time = 501707 ∧
      (HalfAxle.combine (half .left 501704) (half .right 501710)).speed = 25001 := by decide

/-- The state with half-axles in the slots. -/
def withSlots (l r : Option HalfAxle) (s : State) : State :=
  { s with pairs :=
      { left := { State.reset.pairs.left with slot := l }, right := { State.reset.pairs.right with slot := r } } }

/-- L2 of chapter 02 is released before L3 enters its slot, and R1 before L2. -/
theorem test_earlier_half_released_first :
    let s := (withSlots (some (half .left 500852)) (some (half .right 500000))
      (running { site with neighbour := ⟨0, 0⟩ } 503797)).combineHalf (half .left 501704)
    s.pairs.left.slot = some (half .left 501704) ∧ s.pairs.right.slot = none ∧
      (s.assembler.openVehicle.map (fun v => v.axles.map Axle.time)) = some [500000, 500852] := by
  decide +kernel

theorem test_half_released_at_its_time :
    let s := fun (now : LocalTime) => withSlots (some (half .left 500000)) none (running site now)
    (after (.halfRelease .left) (s 506318)).pairs.left.slot.isSome = true ∧
      (after (.halfRelease .left) (s 506320)).pairs.left.slot = none := by decide +kernel

/-! ## Loads (03) -/

theorem test_half_loads_of_chapter_03 :
    stripLoad 820000 25001 268173 15918 4137 = (78505, false) ∧
      stripLoad 800000 25001 275000 15918 4137 = (78539, false) ∧
      (halfLoad site 15918 4137 (half .left 500000)).load = 4908 := by decide

theorem test_other_half_load_of_chapter_03 :
    (halfLoad site 15918 4137 { half .right 500000 with leadArea := 760000, trailArea := 770000 }).load = 4745 := by
  decide

theorem test_mismatch_at_the_boundary :
    stripMismatch 20 60000 48000 = false ∧ stripMismatch 20 60000 47999 = true ∧
      meanLoad 60000 47999 = 3375 ∧ stage (1000000 * 20000) 16384 = (1048575, true) := by decide

/-- The curve of chapter 03 after its cut. -/
def curve : List CurvePoint := cutCurve [⟨-200, 18000⟩, ⟨0, 17200⟩, ⟨200, 16384⟩, ⟨200, 16000⟩]

theorem test_factors_of_chapter_03 :
    [(-350 : Int), -200, -105, 0, 57, 200, 780].map (tempFactor curve) =
      [18000, 18000, 17620, 17200, 16968, 16384, 16384] ∧ tempFactor site.curve 314 = 15918 := by decide

/-- The axle load at its limit and past it, and a mark of one half (R42). -/
theorem test_axle_load_limit :
    let a := fun (l r : Nat) => { edgeAxle with left := some (loadOf l), right := some { loadOf r with mismatch := true } }
    (a 65534 1).load = 65535 ∧ (a 65534 1).saturated = false ∧ (a 65534 2).load = 65535 ∧
      (a 65534 2).saturated = true ∧ (a 1 1).mismatch = true ∧ edgeAxle.load = 3100 := by decide +kernel

theorem test_bands_of_chapter_03 :
    [(-350 : Int), -200, -105, 0, 57, 200, 780].map (tempBand (-300) 150) = [0, 0, 1, 2, 2, 3, 7] := by decide

/-! ## Temperature (04) -/

/-- A probe with c0 = 12,000 and c100 = 52,000 reads 40 codes to the tenth of a degree and a half. -/
theorem test_readings :
    let p := { site with c0 := 12000, c100 := 52000 }
    probeReading p 1023 = none ∧ probeReading p 64512 = none ∧ probeReading p 12000 = some 0 ∧
      probeReading p 12020 = some 1 ∧ probeReading p 11980 = some 0 ∧ probeReading p 11979 = some (-1) := by
  decide

/-- A temperature unit in VALID with a filtered value, and peers 2, 4 and 5 as in chapter 04. -/
def unit (f : Int) (spikes : List Int) : TempUnit :=
  { State.reset.temp with
    status := .valid, filtered := some f, spikes := spikes
    peers := ((State.reset.temp.peers.set 1 ⟨true, 309, 0⟩).set 3 ⟨true, 318, 0⟩).set 4 ⟨true, 321, 0⟩ }

/-- Codes of a probe that reads 40 codes per tenth. -/
def probed : Params := { site with probeFitted := true, c0 := 12000, c100 := 52000 }

theorem test_second_1_of_chapter_04 :
    let r := (unit 5024 []).probePhase probed (12000 + 40 * 316)
    r.1.filtered = some 5032 ∧ (r.1.choose probed).2 = (315, .own) := by decide +kernel

theorem test_second_2_of_chapter_04 :
    let r := (unit 5032 []).probePhase probed (12000 + 40 * 380)
    r.2 = true ∧ r.1.status = .hold ∧ r.1.holdAge = 1 ∧ (r.1.choose probed).2 = (318, .peer) := by decide +kernel

theorem test_second_6_of_chapter_04 :
    let r := ({ unit 5042 [262, 258] with status := .hold, holdAge := 2 }).probePhase probed (12000 + 40 * 255)
    r.1.filtered = some 4080 ∧ r.1.status = .valid ∧ r.1.spikes = [] ∧
      (r.1.choose probed).1.suspect = true ∧ (r.1.choose probed).2 = (318, .peer) := by decide +kernel

theorem test_second_8_of_chapter_04 :
    TempUnit.median [265, 321, 262] = some 265 ∧ reported 4069 = 254 ∧ reported (-24) = -1 := by decide

theorem test_temperature_second_hands_over :
    let s := { running probed 4000000 with temp := { unit 5024 [] with secondDue := some 4000000 } }
    let t := after (.temperatureSecond 24640) s
    t.temp.secondDue = some 4016384 ∧ t.assembler.handover.temp = 315 ∧ t.assembler.handover.band = 4 := by
  decide +kernel

/-- Station 5 sends 315 (0x013B). -/
theorem test_peer_value_taken :
    (after .temperature (got .temperature 5 [0x01, 0x3B] base)).temp.peers[4] = ⟨true, 315, 0⟩ := by
  decide +kernel

/-! ## Vehicles (05) -/

/-- An axle of the first worked sequence of chapter 05. -/
def axle05 (time : LocalTime) (l r : Nat) : Axle :=
  { tag := 0, index := 1, time := time, speed := 24576, direction := .forward, left := some (loadOf l)
    right := some (loadOf r) }

/-- The four axles of vehicle 517, with loads 6,120, 9,480, 8,210 and 8,190. -/
def axles517 : List Axle :=
  [axle05 1000000 3060 3060, axle05 1002400 4740 4740, axle05 1003300 4105 4105, axle05 1004100 4095 4095]

theorem test_summary_of_517 :
    summarize site axles517 =
      { gross := 32000, spacings := [3600, 1350, 1200], wheelbase := 6150, meanSpeed := 24576, unsteady := false
        singleTrack := false } := by decide +kernel

/-- Axle A2 of vehicle 517 joins at spacing 3,600. -/
def joined : Vehicle := { lorry (axle05 1000000 3060 3060) with number := 517, lastSpeed := 24576 }

/-- The observation of an axle of chapter 05. -/
def seen (time : LocalTime) : Observation :=
  { direction := .forward, time := time, speed := 24576, left := some (half .left time)
    right := some (half .right time) }

theorem test_axle_joins_517 :
    let s := (withOpen joined base).admitAxle (seen 1002400)
    (s.assembler.openVehicle.map (fun v => (v.number, v.axles.length, v.gapDue))) = some (517, 2, 1008400) := by
  decide +kernel

/-- C1 comes after the separation time: 517 completes and C1 opens the next number. -/
theorem test_separated_axle_opens_518 :
    let s := { running { site with loopFitted := true } 1010070 with
      assembler := { State.reset.assembler with
        lastNumber := 517, openVehicle := some { joined with separation := some 1007000 } } }
    let t := s.admitAxle (seen 1008000)
    (t.assembler.openVehicle.map Vehicle.number) = some 518 ∧ t.counter .recordsProduced = 1 := by decide +kernel

/-! ## Straddles (06) -/

/-- The HALF-AXLE of station 5's axle A2: LEFT, age 6,814, speed 20,004, load 3,400, index 1, vehicle 88. -/
def notice88 : List Byte :=
  (Body.halfAxle .left 0 20004 3400 1 88 false false).payload (BitVec.ofNat 32 6814)

/-- Station 4 takes station 5's notice of A2 at 3,010,916 (timestamp 3,010,913 in the sequence) and owns. -/
def noticeState : State := withEdge (withOpen (lorry edgeAxle) (got .halfAxle 5 notice88 (running site 3010917)))

theorem test_station_4_owns :
    let v := ((after .halfAxle noticeState).assembler.openVehicle.getD (lorry edgeAxle))
    v.pairing = .owner ∧ v.peer = 5 ∧ v.peerVehicle = 88 ∧ v.axles.map Axle.load = [6500] ∧
      v.flags.straddle = true ∧ (after .halfAxle noticeState).boundary.edges = [] := by decide +kernel

theorem test_gap_interval_of_station_4 : (3000 + 6000) * 16384 / 19996 = 7374 := by decide

/-! ## Classing and screening (07) -/

/-- Entry 5 of the table of chapter 07. -/
def entry41 : ClassEntry :=
  { code := 41, leastAxles := 4, greatestAxles := 4, track := .twoTrack, gross := none
    conditions := [⟨1, 3000, 4500⟩, ⟨2, 1000, 1500⟩, ⟨3, 1000, 1500⟩], grossLimit := some 32000
    axleLimit := some 10000 }

/-- Entry 3 of the table of chapter 07. -/
def entry3 : ClassEntry :=
  { code := 3, leastAxles := 3, greatestAxles := 4, track := .any, gross := some (0, 3500)
    conditions := [⟨1, 1800, 3400⟩], grossLimit := none, axleLimit := none }

theorem test_class_of_517 :
    matchedEntry [entry3, entry41] 4 (summarize site axles517) = some entry41 ∧
      screen site (some entry41) Flags.none axles517 (summarize site axles517) = .clear := by decide +kernel

theorem test_gross_over_at_the_tolerance :
    isOver 5 32000 33600 = false ∧ isOver 5 32000 33601 = true ∧ isOver 5 5750 6100 = true ∧
      isOver 5 11500 11900 = false ∧ isOver 5 44000 46500 = true := by decide

/-! ## Drift (08) -/

theorem test_updates_of_chapter_08 :
    normalisedLoad 6050 4137 = 5990 ∧ normalisedLoad 6120 4137 = 6059 ∧
      targetCorrection 6100 16 96000 = 4164 ∧ updatedCorrection site 4137 96000 = 4153 ∧
      targetCorrection 6100 16 97800 = 4088 ∧ updatedCorrection site 4102 97800 = 4088 := by decide

theorem test_blank_sector_is_not_good :
    goodCorrection (List.replicate 36 0xFF) = false ∧
      (Correction.bytes ⟨List.replicate 8 4096, List.replicate 8 0, 37⟩).length = 36 := by decide +kernel

/-- A record of unity corrections and save count 38. -/
def snap : Correction :=
  { corrections := List.replicate 8 4096, updates := List.replicate 8 0, saveCount := 38 }

/-- The store in a phase whose commands were sent at the sample instant before, with the snapshot, due at 7,372,768. -/
def saving (phase : StoreState) (now : LocalTime) : State :=
  { running site now with drift := { State.reset.drift with
      saveCount := 37, store := phase, snapshot := some snap, phaseDue := some 7372768, phaseAt := now - 2 } }

/-- Ready is taken at a sample instant after the one at which the erase was sent. -/
theorem test_ready_erase_programs :
    let d := (after .eraseReady (saving .erasing 7352450)).drift
    let early := { saving .erasing 7352450 with localTime := 7352448 }
    d.store = .programming ∧ d.phaseDue = some 7353269 ∧ d.phaseAt = 7352450 ∧
      d.port = [.writeEnable, .pageProgram 4096 snap.bytes, .readStatus] ∧
      after .eraseReady early = early ∧
      after .eraseReady { early with localTime := 7352451 } = { early with localTime := 7352451 } := by
  decide +kernel

theorem test_save_settles :
    (after (.verify snap.bytes) (saving .verifying 7352482)).drift.saveCount = 38 ∧
      (after (.verify []) (saving .verifying 7352482)).drift.store = .fault := by decide +kernel

/-! ## Outputs (09) -/

/-- The camera line of chapter 09 with triggers. -/
def outputs (now : LocalTime) (triggers : List LocalTime) (camera : Camera) (stop : Option LocalTime) : State :=
  { running { site with camera := 30000 } now with
    output := { triggers := triggers, camera := camera, cameraEnd := stop, overload := false } }

/-- Vehicles of chapter 09 by their last axle. -/
def passing (time : LocalTime) (speed : Nat) : Vehicle :=
  { lorry edgeAxle with lastTime := time, lastSpeed := speed }

theorem test_trigger_b_enters_before_a :
    let t := (outputs 10023372 [10045056] .idle none).scheduleTrigger (passing 10016000 20000) Flags.none .axleOver
    t.2.output.triggers = [10043033, 10045056] ∧ t.1 = Flags.none := by decide +kernel

theorem test_trigger_d_is_late :
    let t := (outputs 10052000 [10052522, 10067033] .idle none).scheduleTrigger (passing 10030000 25000)
      Flags.none .grossOver
    t.2.output.triggers = [10052000, 10052522, 10067033] ∧ t.1.lateTrigger = true := by decide +kernel

theorem test_camera_pulse_of_b :
    let s := after .triggerDue (outputs 10043033 [10043033, 10045056] .idle none)
    s.output.cameraEnd = some 10043360 ∧ s.cameraLine = true ∧ s.output.triggers = [10045056] := by
  decide +kernel

theorem test_gap_ends_with_e_due :
    let s := after .gapEnd (outputs 10052818 [10052522, 10067033] .gap (some 10052818))
    s.output.camera = .pulse ∧ s.output.cameraEnd = some 10053145 ∧ s.output.triggers = [10067033] := by
  decide +kernel

theorem test_overload_modes :
    [Verdict.clear, .axleOver, .notScreened, .clear, .grossOver].foldl
        (fun l v => (State.overloadAfter .follow v (l.headD false)) :: l) [] = [true, false, true, true, false] ∧
      [Verdict.clear, .axleOver, .notScreened, .clear, .grossOver].foldl
        (fun l v => (State.overloadAfter .latch v (l.headD false)) :: l) [] = [true, true, true, true, false] := by
  decide

/-! ## Control (10) -/

/-- Straps of station 6 at 500 kbit/s. -/
def straps6 : Straps := ⟨false, true, true, false, true, false⟩

theorem test_straps_of_station_6 :
    (after (.powerUp straps6) base).control.number = 6 ∧ (after (.powerUp straps6) base).control.rate = .kbit500 ∧
      (after (.powerUp straps6) base).control.station = .starting := by decide +kernel

/-- A low of less than 100 µs does nothing; a longer one holds the station, its fault line released, until the release. -/
theorem test_reset_pin :
    let faulty := { base with link := { base.link with monitor := .lineFault } }
    after (.resetPin 99 none) base = base ∧ after (.resetPin 99 (some straps6)) base = base ∧
      faulty.faultLine = true ∧ (after (.resetPin 100 none) faulty).faultLine = false ∧
      (after (.resetPin 100 none) faulty).tick.localTime = 0 ∧
      (after (.resetPin 100 (some straps6)) base).control.causes = ⟨false, true, false⟩ := by decide +kernel

/-- The station while STARTING. -/
def starting (now : LocalTime) : State :=
  { State.reset with localTime := now, control := { State.reset.control with number := 6 } }

theorem test_no_memory_halts :
    let s := after .noMemory (starting 32768)
    s.control.station = .halted ∧ s.control.image = .noMemory ∧ s.control.statusDue = some 1015808 ∧
      s.faultLine = true := by decide +kernel

/-- Ready is taken at a sample instant after the first read, which is sent at local time 0. -/
theorem test_ready_waits_for_a_read :
    [(0 : LocalTime), 1, 2, 3].map (fun t =>
      (after (.memoryReady (List.replicate 4096 0) []) (starting t)).control.station) =
        [.starting, .starting, .halted, .starting] := by decide +kernel

theorem test_status_moves_on :
    let s := after .statusDue { running site 983236 with
      control := { (running site 983236).control with statusDue := some 983236 } }
    s.control.statusDue = some 1966276 ∧ (s.link.transmitQueue.map (fun f => f.body.kind)) = [.status] := by
  decide +kernel

/-! ## The link (11) -/

theorem test_check_of_temperature_315 :
    frameBytes 3 (.temperature 315) 0 = [0xA4, 0x03, 0x02, 0x01, 0x3B, 0x24] := by decide +kernel

/-- The header alone carries mark 1; each character is a dominant start bit, 8 bits, the mark and a recessive stop. -/
theorem test_characters_of_temperature_315 :
    (frameCharacters 3 (.temperature 315) 0).map Character.mark = [true, false, false, false, false, false] ∧
      ({ mark := true, data := 0xA4 } : Character).bits =
        [false, true, false, true, false, false, true, false, false, true, true] := by decide +kernel

theorem test_headers :
    Kind.transfer.header = 0x27 ∧ Kind.halfAxle.header = 0x26 ∧ Kind.temperature.header = 0xA4 := by decide

/-- A queued frame by its body. -/
def frame (b : Body) (attempted : Bool) : TxFrame := { body := b, errors := 0, attempted := attempted }

/-- A vehicle record by its number. -/
def recordOf (n : Nat) : Record :=
  { lane := 2, number := n, firstTime := 0, classCode := 0, verdict := .clear, flags := Flags.none, meanSpeed := 0
    gross := 0, wheelbase := 0, temp := 0, source := .own, band := 0, correction := 4096, axles := [], spacings := [] }

/-- V1 under attempt, V2 to V10, T1 and S1: the full queue of chapter 11. -/
def fullQueue : List TxFrame :=
  frame (.vehicle (recordOf 1)) true ::
    ((List.range 9).map (fun i => frame (.vehicle (recordOf (i + 2))) false) ++
      [frame (.temperature 1) false, frame (.status true .absent false false false false false
        (Vector.replicate 16 0)) false])

theorem test_half_axle_displaces_the_status :
    let r := queueTake (.halfAxle .left 0 0 0 0 0 false false) fullQueue
    r.2 = true ∧ (r.1.map (fun f => f.body.kind)).head? = some .halfAxle ∧
      (r.1.map (fun f => f.body.kind)).getLast? = some .temperature ∧ r.1.length = 12 := by decide +kernel

theorem test_temperature_takes_the_place_of_its_kind :
    let r := queueTake (.temperature 2) fullQueue
    r.2 = false ∧ r.1.length = 12 ∧ (r.1.filter (fun f => f.body.kind == .temperature)) =
      [frame (.temperature 2) false] := by decide +kernel

/-! ## Witnesses: states that meet the hypotheses of the statements

Each theorem is named after its statement. Where a statement has clauses, each clause has its state, at a boundary of
its range where it has one; most also check what the command makes of that state. -/

/-- The frame that `got` puts at the head of the receive queue. -/
def gotFrame (k : Kind) (source : Nat) (payload : List Byte) (s : State) : RxFrame :=
  { kind := k, source := source, payload := payload, stamp := s.localTime - 4 }

/-- The head of the receive queue is the frame received, in every state but STARTING. -/
theorem witness_headIs (k : Kind) (source : Nat) (payload : List Byte) :
    headIs (gotFrame k source payload base) (got k source payload base) :=
  ⟨show base.control.station ≠ .starting by decide, rfl⟩

/-- The state with its link idle and empty, in RUNNING, at an even local time. -/
theorem witness_base :
    base.control.station = .running ∧ base.measuring = true ∧ base.localTime.toNat % 2 = 0 ∧
      base.link.transmitQueue = [] ∧ base.link.transmitter = .idle ∧ base.drift.store = .idle := by decide

/-- The station held by its reset pin. -/
def held : State := after (.resetPin 100 none) base

theorem witness_IdleStepQueuesDueOrAdvances :
    (State.reset.pending = [] ∧ State.reset.dueCommands = []) ∧
      (held.pending = [] ∧ held.dueCommands = [] ∧ held.control.held = true) ∧
      (base.pending = [] ∧ ({ base with control := { base.control with statusDue := some 4000000 } }).dueCommands =
        [.statusDue]) := by decide +kernel

/-- The invariants hold of the running station with a vehicle, an edge axle and a queued frame. -/
def invState : State :=
  { withEdge (withOpen (lorry edgeAxle) base) with
    link := { base.link with
      transmitQueue := [frame (.temperature 1) false], transmitter := .waitIdle, receiver := .inFrame, buffer := [0xA4] } }

theorem witness_invariants_capacities : FitsCapacities invState := by
  refine ⟨⟨by decide, by decide, by decide, by decide, ?_, ?_⟩, ?_, ?_, ⟨by decide, by decide, by decide⟩,
    by decide, by decide, ⟨by decide, by decide, by decide, by decide, by decide⟩,
    ⟨by decide, by decide, by decide⟩⟩ <;> intro v h
  · cases h
  · cases h
  · cases h
    decide
  · cases h

theorem witness_invariants_ranges : CountersFit invState ∧ CorrectionsFit invState ∧ TemperaturesFit invState := by
  refine ⟨?_, ⟨?_, ?_, ?_⟩, ⟨?_, ?_, ?_, ?_, ?_, ?_, ?_⟩⟩
  · intro n
    revert n
    decide +kernel
  · intro b
    revert b
    unfold correctionInRange
    decide +kernel
  · intro v h
    cases h
    unfold correctionInRange
    decide
  · intro v h
    cases h
  · intro f h
    cases h
  · intro j h
    revert j
    unfold plausible
    decide +kernel
  · intro t h
    cases h
  · unfold plausible
    decide
  · unfold plausible
    decide
  · intro v h
    cases h
    unfold plausible
    decide
  · intro v h
    cases h

theorem witness_invariants_blocks : IdleWhereNotMeasuring invState ∧ ProbeConsistent invState := by
  refine ⟨⟨?_, ?_, ?_⟩, ?_⟩
  · intro h
    exact absurd h (by decide)
  · intro c h
    cases c <;> exact absurd h (by decide)
  · intro h
    exact absurd h (by decide)
  · unfold ProbeConsistent
    decide

theorem witness_invariants_link :
    QueueOrdered invState.link ∧ TransmitterMatchesQueue invState ∧ BufferInFrame invState.link := by
  refine ⟨⟨by decide, ?_, by decide⟩, ⟨by decide, by decide, by decide, ?_, by decide⟩, by decide, by decide⟩
  · intro k h
    cases k <;> decide
  · constructor
    · intro h
      exact absurd h (by decide)
    · rintro ⟨o, h⟩
      exact absurd h (by cases o <;> decide)

/-- A step and a command that answer a next state, and a command that is no reset. -/
theorem witness_steps_answer :
    step invState = .next invState.tick ∧
      exec .lineBusy invState = .next { invState with link := { invState.link with monitor := .busy } } ∧
      ¬ isReset .lineBusy := ⟨rfl, rfl, id⟩

/-- The held station meets what is said of one. -/
theorem witness_held_station :
    held.control.station = .starting ∧ held.localTime = 0 ∧ held.link.monitor = .busy ∧ held.faultLine = false ∧
      MeasuringBlocksReset held := by
  unfold MeasuringBlocksReset
  decide +kernel

theorem witness_StationStateMovesAsTabled :
    (after (.powerUp straps6) base).control.station = .starting ∧
      (after (.powerUp ⟨false, false, false, false, false, false⟩) base).control.station = .halted ∧
      (after .noMemory (starting 32768)).control.station = .halted := by decide +kernel

theorem witness_ResetsReinitialise :
    (after (.restart straps6) (got .command 0 [0, 2] base)).control.causes = ⟨false, false, true⟩ ∧
      (after (.restart straps6) (got .command 0 [4, 2] base)).control.number = 6 ∧
      (after (.restart straps6) (got .command 0 [5, 2] base)).control.number = 4 := by decide +kernel

/-- A good image of a lane 1 without curve points and class entries. -/
def image : List Byte := [3, 0, 100] ++ List.replicate 97 0 ++ [0, 103] ++ List.replicate 3994 0

theorem witness_GoodImageEntersRunning :
    checkImage image = .good ∧ goodCorrection snap.bytes = true ∧
      (after (.memoryReady image snap.bytes) (starting 32768)).control.station = .running ∧
      (after (.memoryReady image snap.bytes) (starting 32768)).drift.saveCount = 38 ∧
      (after (.memoryReady image (List.replicate 36 0)) (starting 2)).drift.defaulted = true := by decide +kernel

/-- The address of each class entry of an image. -/
def placeIn (image : List Byte) : Nat → Nat
  | 0 => 99 + 4 * byteAt image 98 + 1
  | k + 1 => placeIn image k + 17 + 5 * byteAt image (placeIn image k + 16)

/-- The addresses of the class entries exist for every image. -/
theorem witness_places (image : List Byte) :
    placeIn image 0 = 99 + 4 * byteAt image 98 + 1 ∧
      ∀ k, placeIn image (k + 1) = placeIn image k + 17 + 5 * byteAt image (placeIn image k + 16) :=
  ⟨rfl, fun _ => rfl⟩

/-- The image with its length field at another value, and with another check word. -/
theorem witness_FailedStartHalts :
    (starting 32768).control.number ≠ 0 ∧ checkImage (List.replicate 4096 0) = .badFormat ∧
      checkImage (image.set 2 98) = .badLength ∧ checkImage (image.set 2 101) = .badLength ∧
      checkImage (image.set 98 1) = .badLength ∧ checkImage (image.set 101 104) = .badCheck ∧
      (after (.memoryReady (List.replicate 4096 0) []) (starting 32768)).control.image = .badFormat ∧
      (after (.memoryReady (image.set 2 98) []) (starting 2)).control.image = .badLength ∧
      (after .noMemory (starting 32768)).control.image = .noMemory := by decide +kernel

/-- An image of station 6 whose every field stands within its range: a loop, no neighbour, a probe, M = 16, two curve
points and two class entries, the second with one spacing condition and its three optional parts. -/
def sound : List Byte :=
  [3, 0, 147, 0, 7, 1, 0, 0, 0x01, 0xF4] ++ List.replicate 12 0 ++ [7, 7, 7, 7, 0x01, 0x00, 0, 0, 5, 1, 1] ++
    [0, 0, 0, 1, 6, 10, 0, 10, 0, 10, 0, 10, 0, 10, 0xFE, 0x70, 5, 0x03, 0x20, 0, 10] ++
    [0x0B, 0xB8, 5, 0, 50, 0, 0, 1, 0, 100, 0, 1, 0, 0, 1, 0, 0, 0x03, 0xE8, 41, 0x07, 0xD0, 0, 16, 1] ++
    [0, 0x03, 0xE8, 0, 0x03, 0xE8, 0, 0, 0, 0, 0, 0, 0, 0, 1, 1, 2, 0, 10] ++
    [2, 0, 0, 0x40, 0, 0, 1, 0x20, 0] ++
    [2, 1, 1, 12, 2, 0, 0, 0, 0, 0, 0, 0, 0, 0, 0, 0, 0, 0] ++
    [63, 2, 2, 1, 7, 0, 0, 0, 0, 0, 5, 0, 0, 1, 0, 1, 1, 1, 0, 5, 0, 6]

/-- An unadjusted image; and the adjustments of a value, of M, of a neighbour, of a curve point that does not rise, of a
class code that drops its entry and of an entry that no vehicle meets. -/
theorem witness_ParametersAreClamped :
    let p := fun (at' : Nat) (b : Byte) => prepareImage 6 (sound.set at' b)
    (prepareImage 6 sound).adjusted = false ∧ (prepareImage 6 sound).value.tracking = true ∧
      (prepareImage 6 sound).value.samples = 16 ∧ (p 77 15).value.tracking = false ∧ (p 77 15).value.samples = 15 ∧
      (p 77 31).value.samples = 16 ∧ (prepareSamples 255).value = 128 ∧ (prepareSamples 256).value = 256 ∧
      (p 6 6).value.neighbour = ⟨0, 0⟩ ∧ (p 6 6).adjusted = true ∧ (p 5 13).value.lane = 12 ∧
      (p 36 0).value.probeFitted = false ∧ (p 36 0).adjusted = true ∧ (p 95 3).value.overloadMode = .off := by
  decide +kernel

theorem witness_TablesArePrepared :
    let p := fun (at' : Nat) (b : Byte) => prepareImage 6 (sound.set at' b)
    sound.length = 147 ∧ placeIn sound 0 = 108 ∧ placeIn sound 1 = 125 ∧
      (prepareImage 6 sound).value.curve = [⟨0, 16384⟩, ⟨1, 8192⟩] ∧
      (p 104 0).value.curve = [⟨0, 16384⟩] ∧ (p 104 0).adjusted = true ∧
      (prepareImage 6 sound).value.classTable =
        [{ code := 1, leastAxles := 1, greatestAxles := 12, track := .twoTrack, gross := none, conditions := []
           grossLimit := none, axleLimit := none },
         { code := 63, leastAxles := 2, greatestAxles := 2, track := .singleTrack, gross := some (0, 5)
           conditions := [⟨1, 5, 6⟩], grossLimit := some 1, axleLimit := some 1 }] ∧
      ((p 108 64).value.classTable.map ClassEntry.code) = [63] ∧ (p 108 64).adjusted = true ∧
      (p 142 2).adjusted = true := by decide +kernel

/-- A station in another state whose status is due. -/
def due (st : Station) : State :=
  { base with control := { base.control with station := st, statusDue := some 4000000 } }

theorem witness_StatusFallsDue :
    (after .statusDue (due .running)).control.statusDue = some (4000000 + 983040) ∧
      (after .statusDue (due .halted)).control.statusDue = some (4000000 + 983040) ∧
      (after .statusDue (due .halted)).link.transmitter = .waitIdle ∧
      (after .statusDue (due (.mute .fromRunning))).link.transmitQueue = [] := by decide +kernel

/-- The station with its overload latch set. -/
def latched : State :=
  { running { site with overloadMode := .latch } 4000000 with
    output := { State.reset.output with overload := true } }

theorem witness_CommandsAndUnusedFrames :
    (after .clearLatch (got .command 3 [0, 1] latched)).output.overload = false ∧
      (after .statusNow (got .command 3 [4, 3] base)).link.transmitter = .waitIdle ∧
      (after .statusNow (got .command 3 [4, 3] (due .halted))).link.transmitter = .idle ∧
      (after .commandCodeUnknown (got .command 3 [4, 0] base)).counter .framesDiscarded = 1 ∧
      (after .commandCodeUnknown (got .command 3 [4, 4] base)).counter .framesDiscarded = 1 ∧
      (after .commandNotAddressed (got .command 3 [5, 1] base)) = base ∧
      after .vehicleStatusDropped (got .vehicle 3 [] base) = base ∧
      after .vehicleStatusDropped (got .status 3 [] base) = base ∧
      after .vehicleStatusDropped (got .announce 0 [] base) = base ∧
      after .halfAxle (got .halfAxle 1 [] (due .halted)) = due .halted ∧
      after .transfer (got .transfer 1 [] (due .halted)) = due .halted ∧
      after .yieldClosed (got .yieldClosed 1 [] (due (.mute .fromHalted))) = due (.mute .fromHalted) ∧
      after .announce (got .announce 1 [] (due .halted)) = due .halted ∧
      after .temperature (got .temperature 1 [1, 59] (due .halted)) = due .halted := by decide +kernel

/-- The station with its four baselines loaded. -/
def loaded : State :=
  { base with channels :=
      ⟨{ Channel.reset with baseline := some 3200 }, { Channel.reset with baseline := some 3200 },
        { Channel.reset with baseline := some 3200 }, { Channel.reset with baseline := some 3200 }⟩ }

theorem witness_QuietSampleMovesBaselines :
    (∀ c : Chan, loaded.control.params.gain.get c ≠ 0) ∧ (∀ c : Chan, (loaded.channels.get c).detector = .idle) ∧
      theta 3 = 2048 ∧ (after (.sample 2060 12 12 12 false) loaded).channels.ll.baseline = some 5247 ∧
      (after (.sample 12 12 12 12 false) loaded).channels.tr.baseline = some 3199 := by
  refine ⟨?_, ?_, by decide +kernel⟩ <;> intro c <;> cases c <;> decide

/-- Channel by channel; a lone pulse reaches its half; pulses of both halves complete together. -/
theorem witness_SampleActsChannelwise :
    let d := (detect 2048 1024 4096 1011 (-28) (wheel 11).1).2
    (after (.sample 2061 12 12 12 false) loaded).channels.ll.detector = .qualify ∧
      (after (.sample 2061 12 12 12 false) (due .halted)).channels = base.channels ∧
      after (.sample 2061 12 12 12 false) { loaded with localTime := 4000001 } = { loaded with localTime := 4000001 } ∧
      d = .pulse 2008 47700 false ∧
      (after (.sample (-28) 12 12 12 false) (together 0)).pairs.left.leads = [pulse .ll 2008 47700] ∧
      handedPulse true .ll d = [pulse .ll 2008 47700] ∧ handedPulse true .tr d = [pulse .tr 2008 47700] := by
  decide +kernel

/-- A channel in every state of its detector. -/
theorem witness_DetectorFollowsTable :
    let c := { channelLL with start := some 1000, tentativeEnd := some 1004, count := 2, area := 1000 }
    (detect 2048 1024 256 1011 12 { Channel.reset with baseline := none }).1.baseline = some 3072 ∧
      (detect 2048 1024 256 1011 2061 { c with detector := .qualify }).1.detector = .pulse ∧
      (detect 2048 1024 256 1011 1036 { c with detector := .pulse }).1.detector = .tail ∧
      (detect 2048 1024 256 1255 1037 { c with detector := .tail }).1.detector = .pulse ∧
      (detect 2048 1024 256 1256 1037 { c with detector := .tail }).2 = .overlong ∧
      (detect 2048 1024 256 1011 1036 { c with detector := .held }).1.detector = .idle := by decide +kernel

theorem witness_AgedEntryExpires :
    let s := fun (now : LocalTime) => withLeads [pulse .ll 228000 1, pulse .ll 228000 2] (running site now)
    (s 281252).measuring = true ∧ (s 281252).localTime.toNat % 2 = 0 ∧
      (listsOf (s 281252) .left).leads = [pulse .ll 228000 1, pulse .ll 228000 2] ∧
      ((281252 : LocalTime) - 228000).toInt - (4096 + 2 : Nat) > (3000 * 16384 / 1000 : Nat) ∧
      ¬ ((281250 : LocalTime) - 228000).toInt - (4096 + 2 : Nat) > (3000 * 16384 / 1000 : Nat) ∧
      (after (.leadExpiryByAge .left) (s 281252)).pairs.left.leads = [pulse .ll 228000 2] := by decide +kernel

theorem witness_TrailTakesOldestLead :
    let s := withLeads [pulse .ll 200000 1, pulse .ll 201000 1] (running site 4000000)
    (s.trailArrival .left (pulse .tl 200703 1)).pairs.left.leads = [pulse .ll 201000 1] ∧
      (s.trailArrival .left (pulse .tl 200702 1)).pairs.left.orphans = [pulse .tl 200702 1] ∧
      (base.trailArrival .left (pulse .tl 200702 1)).pairs.left.orphans = [pulse .tl 200702 1] := by decide +kernel

/-- The state with orphan trails on the LEFT half. -/
def withOrphans (l : List Pulse) (s : State) : State :=
  { s with pairs := { s.pairs with left := { s.pairs.left with orphans := l } } }

/-- An orphan before the lead by the shortest and the longest interval, one too old, one behind it, and none in the window,
with room and with a full list. -/
theorem witness_LeadTakesOrphan :
    let s := withOrphans [pulse .tl 200000 1, pulse .tl 240000 1] (running site 4000000)
    let t := fun (now : LocalTime) => s.leadArrival .left (pulse .ll now 1)
    let waits := fun (u : State) => (u.pairs.left.slot.map (fun h => (h.direction, h.interval)), u.pairs.left.orphans.length)
    let full := (withLeads (List.replicate 8 (pulse .ll 1 1)) base).leadArrival .left (pulse .ll 200000 1)
    waits (t 200703) = (some (.reverse, 703), 1) ∧ waits (t 249152) = (some (.reverse, 49152), 1) ∧
      waits (t 249153) = (some (.reverse, 9153), 0) ∧ (t 249153).counter .orphanTrails = 1 ∧
      waits (t 190849) = (some (.forward, 9151), 1) ∧
      waits (t 200702) = (some (.forward, 39298), 1) ∧
      (base.leadArrival .left (pulse .ll 200000 1)).pairs.left.leads = [pulse .ll 200000 1] ∧
      full.pairs.left.leads.length = 8 ∧ full.counter .loneLeads = 1 := by decide +kernel

theorem witness_HalfAxleSpeedInRange :
    (formHalfAxle site .left .forward (pulse .ll 0 1) (pulse .tl 703 1)).speed = 69917 ∧
      (formHalfAxle site .left .forward (pulse .ll 0 1) (pulse .tl 49152 1)).speed = 1000 ∧
      (formHalfAxle site .left .reverse (pulse .ll 703 1) (pulse .tl 0 1)).speed = 69917 := by decide +kernel

/-- Mates in both orders; the other half not live; a half that still waits on the own side; no mate at one half-tick past
W_h; and one, two and no halves that wait with an earlier lead time. -/
theorem witness_MatesCombine :
    let q := running { site with neighbour := ⟨0, 0⟩ } 503797
    let alone := running { site with neighbour := ⟨0, 0⟩, gain := ⟨268173, 0, 275000, 276000⟩ } 503797
    let seen := fun (s : State) => s.assembler.openVehicle.map (fun v => v.axles.map Axle.time)
    let t := fun (l r : Option HalfAxle) (h : HalfAxle) => (withSlots l r q).combineHalf h
    seen (t none (some (half .right 500256)) (half .left 500000)) = some [500128] ∧
      seen (t (some (half .left 500000)) none (half .right 500256)) = some [500128] ∧
      (t none (some (half .right 500257)) (half .left 500000)).pairs =
        (withSlots (some (half .left 500000)) (some (half .right 500257)) q).pairs ∧
      alone.live .right = false ∧ seen (alone.combineHalf (half .left 500000)) = some [500000] ∧
      seen (t (some (half .left 500000)) none (half .left 501704)) = some [500000] ∧
      seen (after (.halfRelease .left) (withSlots (some (half .left 500000)) (some (half .right 499000))
        { q with localTime := 506320 })) = some [499000, 500000] ∧
      (∀ h, ((withSlots (some (half .left 500000)) (some (half .right 500000)) q).waitingBefore h 501704).map
        HalfAxle.leadTime = some 500000) ∧
      seen ((withSlots (some (half .left 500000)) (some (half .right 500852)) q).admitOrdered
        (half .left 501704).alone) = some [500000, 500852, 501704] ∧
      seen ((withSlots (some (half .left 500852)) (some (half .right 500000)) q).admitOrdered
        (half .left 501704).alone) = some [500000, 500852, 501704] ∧
      base.live .left = true ∧ base.live .right = true := by
  refine ⟨by decide +kernel, by decide +kernel, by decide +kernel, by decide +kernel, by decide +kernel,
    by decide +kernel, by decide +kernel, fun h => by cases h <;> decide +kernel, by decide +kernel, by decide +kernel,
    by decide +kernel, by decide +kernel⟩

theorem witness_ReleasedHalfOpensVehicle :
    let s := withSlots (some (half .left 500000)) none (running { site with neighbour := ⟨0, 5⟩ } 506320)
    s.measuring = true ∧ s.assembler.openVehicle = none ∧
      ((after (.halfRelease .left) s).assembler.openVehicle.map Vehicle.number) = some 1 := by decide +kernel

theorem witness_TemperatureFactorByCases :
    curve.Pairwise (fun a b => a.temp < b.temp) ∧ curve.length = 3 ∧ tempFactor curve (-200) = 18000 ∧
      tempFactor curve 200 = 16384 ∧ tempFactor [⟨0, 9000⟩] 5 = 9000 := by decide +kernel

/-- Values at both limits and one beyond; ages at the limit of presence; a median of three and none. -/
theorem witness_PeerTableKept :
    let u := { State.reset.temp with
      peers := (State.reset.temp.peers.set 1 ⟨true, 309, 3599⟩).set 3 ⟨true, 318, 3600⟩ }
    temperatureValue [0x03, 0x20] = 800 ∧ temperatureValue [0xFE, 0x70] = -400 ∧
      (after .temperature (got .temperature 1 [0x03, 0x20] base)).temp.peers[0].value = 800 ∧
      (after .temperature (got .temperature 15 [0x03, 0x21] base)).counter .framesDiscarded = 1 ∧
      u.agePeers.peers[1] = ⟨true, 309, 3600⟩ ∧ u.agePeers.peers[3] = ⟨false, 318, 3601⟩ ∧
      (unit 5024 []).freshValues site = [309, 318, 321] ∧ State.reset.temp.freshValues site = [] ∧
      TempUnit.median [309, 318, 321] = some 318 := by decide +kernel

/-- The three worked seconds above meet the VALID clauses; these meet the others. -/
theorem witness_ProbePhaseByStatus :
    let u := fun (st : OwnStatus) (l : List Int) => { unit 5024 l with status := st, holdAge := 60 }
    (State.reset.temp.probePhase probed 24580) = (State.reset.temp, false) ∧
      (({ State.reset.temp with status := .starting }).probePhase probed 24600).1.filtered = some 5040 ∧
      (({ State.reset.temp with status := .starting }).probePhase probed 1023).1.status = .starting ∧
      ((u .hold [262]).probePhase probed 1023).1.status = .stale ∧
      ((u .stale [262]).probePhase probed (12000 + 40 * 284)).1.status = .valid ∧
      ((u .stale [262]).probePhase probed (12000 + 40 * 283)).1.spikes = [262, 283] ∧
      ((u .stale [262, 283]).probePhase probed (12000 + 40 * 253)).1.spikes = [] ∧
      ((u .stale [200, 262, 283]).probePhase probed (12000 + 40 * 252)).1.spikes = [262, 283, 252] := by
  decide +kernel

theorem witness_EffectiveTemperatureByCases :
    let alone := fun (st : OwnStatus) (held : Option Int) (age : Nat) =>
      ({ State.reset.temp with status := st, filtered := some 5024, held := held, heldAge := age }).choose site
    (alone .valid none 0).2 = (314, .own) ∧ (alone .hold none 0).2 = (314, .ownHeld) ∧
      (alone .stale (some 120) 599).2 = (120, .held) ∧ (alone .stale (some 120) 600).2 = (0, .default) ∧
      (alone .stale none 0).2 = (0, .default) ∧ ((unit (16 * 358) []).choose site).2 = (358, .own) ∧
      ((unit (16 * 359) []).choose site).2 = (318, .peer) ∧
      (({ unit 5024 [] with status := .stale }).choose site).2 = (318, .peer) := by decide +kernel

/-- A second before its notice is due, one at which it is, and the first since reset. -/
theorem witness_TemperatureSecondRuns :
    let s := fun (since : Option Nat) => { running probed 4000000 with temp := { State.reset.temp with
      status := .valid, filtered := some 5024, sinceNotice := since, secondDue := some 4000000 } }
    let t := fun (since : Option Nat) => after (.temperatureSecond 25760) (s since)
    (∀ j : Fin 15, (s none).temp.peers[j].present = false) ∧ probeReading probed 25760 = some 344 ∧
      (t (some 8)).temp.sinceNotice = some 9 ∧ (t (some 8)).assembler.handover.temp = 322 ∧
      (t (some 8)).link.transmitQueue = [] ∧ (t (some 9)).temp.sinceNotice = some 0 ∧
      (t none).link.transmitQueue.map TxFrame.body = [.temperature 322] := by decide +kernel

/-- The station with a loop whose last three samples agree. -/
def looped (qualified : Option Bool) (level : Bool) : State :=
  let s := running { site with loopFitted := true } 1007004
  { s with assembler := { s.assembler with
      loop := { qualified := qualified, level := level, count := 3, since := 1007000 }
      openVehicle := some joined } }

theorem witness_LoopTransitionSeparates :
    ((after .loopTransition (looped (some true) false)).assembler.openVehicle.bind Vehicle.separation) =
        some 1007000 ∧
      (after .loopTransition (looped none false)).assembler.openVehicle = some joined ∧
      (after .loopTransition (looped (some false) true)).assembler.loop.qualified = some true ∧
      after .loopTransition (looped (some true) true) = looped (some true) true := by decide +kernel

theorem witness_GapTimerEndsVehicle :
    let s := withOpen joined { running site 1007374 with
      pairs := (withSlots (some (half .left 1007374)) none base).pairs }
    let y := withClosing { joined with pairing := .yielded, peer := 5, peerVehicle := 88, forwarded := 3 }
      (running site 1007374)
    joined.gapDue = 1007374 ∧ (after (.gapTimer .openSlot) s).counter .recordsProduced = 1 ∧
      (after (.gapTimer .closingSlot) y).counter .vehiclesYielded = 1 ∧
      ((after (.gapTimer .closingSlot) y).link.transmitQueue.map TxFrame.body) = [.yieldClosed 5 88 3] := by
  decide +kernel

/-- The gap timer of an OWNER vehicle that waits, of one that does not, of a YIELDED one, and of one with an edge axle. -/
theorem witness_GapTimerEndsVehicle_held :
    let o := { joined with pairing := .owner, peer := 5, peerVehicle := 88 }
    let t := fun (v : Vehicle) => after (.gapTimer .openSlot) (withOpen v (running site 1007374))
    let c := fun (v : Vehicle) => after (.gapTimer .closingSlot) (withClosing v (running site 1007374))
    let edge := after (.gapTimer .openSlot) (withOpen { joined with number := 311 } (withEdge (running site 1007374)))
    let held := fun (s : State) => s.assembler.closingVehicle.map (fun v => (v.gapDueMark, v.holdDue))
    held (t o) = some (true, some 1023758) ∧ (t o).assembler.openVehicle = none ∧ held (c o) = some (true, some 1023758) ∧
      (t { o with yieldClosed := true }).counter .recordsProduced = 1 ∧
      (t { o with yieldClosed := true }).assembler.closingVehicle = none ∧
      (c { o with flags := { o.flags with partnerLost := true } }).counter .recordsProduced = 1 ∧
      (t { o with pairing := .yielded }).counter .vehiclesYielded = 1 ∧ held edge = some (true, none) := by
  decide +kernel

/-- A vehicle of twelve axles. -/
def roadTrain : Vehicle := { joined with axles := List.replicate 12 (axle05 1000000 3060 3060) }

/-- Vehicle 311 paired with station 5. -/
def owned (a : Axle) : Vehicle := { lorry a with pairing := .owner, peer := 5, peerVehicle := 88 }

/-- An axle at the longest spacing joins; one half-tick later it opens the next vehicle. -/
theorem witness_AxleJoinsOpenVehicle :
    let placed := fun (v : Vehicle) (t : LocalTime) => ((withOpen v base).admitAxle (seen t)).assembler.openVehicle.map
      (fun v => (v.axles.length, v.flags.continuation))
    ((joined.lastSpeed + 24576 : Nat) : Int) * ((1004000 : LocalTime) - joined.lastTime).toInt / 32768 = 6000 ∧
      placed joined 1004000 = some (2, false) ∧ placed joined 1004001 = some (1, false) ∧
      placed roadTrain 1004000 = some (1, true) ∧
      ((withOpen joined base).admitAxle (seen 1004001)).counter .recordsProduced = 1 := by decide +kernel

/-- An axle of two halves and one of one half; the second stands alone beside a transferred axle of its own side, and past
the limit of K from one of the other side. -/
theorem witness_Sided_StandsAlone :
    let moved : Axle := { axle05 1000000 0 3060 with left := none, right := some { loadOf 3300 with remote := true } }
    let o := { lorry moved with pairing := .owner, peer := 5 }
    Sided (seen 1002400) ∧ Sided (half .left 1002400).alone ∧ Sided (half .right 1000000).alone ∧
      StandsAlone site (seen 1000000) o ∧ StandsAlone site (half .right 1000000).alone o ∧
      StandsAlone site (half .left 1000201).alone o ∧ ¬ StandsAlone site (half .left 1000200).alone o := by
  refine ⟨by simp [Sided, seen, half], by simp [Sided, HalfAxle.alone, half], by simp [Sided, HalfAxle.alone, half],
    by simp [StandsAlone, seen], by simp [StandsAlone, HalfAxle.alone, half, lorry],
    fun _ _ _ b hb hd => ?_, fun h => ?_⟩
  · simp only [lorry, List.mem_singleton] at hb
    subst hb
    exact absurd hd (by decide)
  · exact h rfl rfl rfl _ (List.mem_singleton.mpr rfl) (by decide) { loadOf 3300 with remote := true } rfl
      (.inl ⟨rfl, rfl, rfl⟩)

/-- A single half that joins an UNPAIRED vehicle and an OWNER one, facing its peer and not, and a YIELDED one; and the end of
an OWNER vehicle, its close met or not, of a YIELDED one, and of one with an edge axle, by an axle past the longest spacing,
into an empty closing slot and an occupied one. -/
theorem witness_AxleJoinsOpenVehicle_statuses :
    let first := axle05 1000000 3060 3060
    let o := owned first
    let joins := fun (v : Vehicle) (h : Half) => (withOpen v base).admitAxle (half h 1002400).alone
    let places := fun (v : Vehicle) (h : Half) => ((joins v h).assembler.openVehicle.map (fun v => v.axles.length),
      (joins v h).boundary.edges.length)
    let next := { withOpen o base with assembler := { base.assembler with openVehicle := some o, lastNumber := 311 } }
    let ends := fun (v : Vehicle) (s : State) => (withOpen v s).admitAxle (half .right 1004001).alone
    let closing := fun (t : State) => (t.assembler.openVehicle.map Vehicle.number, t.assembler.closingVehicle.map
      Vehicle.number)
    let y := { o with pairing := .yielded }
    places joined .left = (some 2, 1) ∧ places o .right = (some 2, 1) ∧ places o .left = (some 2, 0) ∧
      ((joins y .left).assembler.openVehicle.map Vehicle.forwarded) = some 1 ∧
      (joins y .left).link.transmitQueue.length = 1 ∧
      closing (ends o next) = (some 312, some 311) ∧ closing (ends y next) = (some 312, some 311) ∧
      (ends { o with gapDueMark := true, yieldClosed := true } next).counter .recordsProduced = 1 ∧
      (ends { y with gapDueMark := true } next).counter .vehiclesYielded = 1 ∧
      closing (ends (lorry first) (withEdge next)) = (some 312, some 311) ∧
      (ends o (withClosing joined next)).counter .recordsProduced = 1 := by decide +kernel

/-- Late axles: between two, level with the first, before it, and in a full vehicle; and a local half that fills a
transferred axle at the limit of K. -/
theorem witness_LateAndMergedAxlesPlaced :
    let v := { joined with
      axles := [axle05 1000000 3060 3060, axle05 1002400 4740 4740], lastTime := 1002400, nextTag := 2 }
    let full := { roadTrain with lastTime := 1002400 }
    let late := fun (v : Vehicle) (t : LocalTime) => ((withOpen v base).admitAxle (seen t)).assembler.openVehicle.map
      (fun v => (v.axles.map Axle.time, v.flags.incomplete, v.flags.truncated))
    let half' := { half .right 3004296 with leadArea := 760000 }
    let moved : Axle := { edgeAxle with left := some { loadOf 3300 with remote := true }, right := none }
    let merged := (withOpen { lorry moved with pairing := .owner } base).admitAxle half'.alone
    late v 1001000 = some ([1000000, 1001000, 1002400], false, false) ∧
      late v 1000000 = some ([1000000, 1000000, 1002400], false, false) ∧
      late v 999999 = some ([1000000, 1002400], true, false) ∧
      (late full 1001000).map (fun x => x.2) = some (false, true) ∧
      (late full 999999).map (fun x => x.2) = some (true, true) ∧
      (merged.assembler.openVehicle.map (fun v => (v.axles.length, v.flags.straddle, v.axles.all
        (fun a => a.right.isSome)))) = some (1, true, true) := by decide +kernel

/-- A late single half in an UNPAIRED, an OWNER and a YIELDED vehicle, and a local half between two transferred axles: the
second is nearer, and at equal distance the first is the earlier. -/
theorem witness_LateAndMergedAxlesPlaced_statuses :
    let v := { joined with
      axles := [axle05 1000000 3060 3060, axle05 1002400 4740 4740], lastTime := 1002400, nextTag := 2 }
    let o := { v with pairing := .owner, peer := 5, peerVehicle := 88 }
    let late := fun (v : Vehicle) (h : Half) => (withOpen v base).admitAxle (half h 1001000).alone
    let places := fun (t : State) => (t.assembler.openVehicle.map (fun v => v.axles.map Axle.single),
      t.boundary.edges.map EdgeEntry.index)
    let moved := fun (tag : Nat) (time : LocalTime) => ({ edgeAxle with
      tag := tag, time := time, left := some { loadOf 3300 with remote := true }, right := none } : Axle)
    let between := fun (second : LocalTime) =>
      ((withOpen { lorry (moved 0 3004096) with pairing := .owner, axles := [moved 0 3004096, moved 1 second] }
        base).admitAxle (half .right 3004196).alone).assembler.openVehicle.map (fun v => v.axles.map Axle.single)
    places (late v .right) = (some [false, true, false], [2]) ∧
      places (late o .right) = (some [false, true, false], [2]) ∧
      places (late o .left) = (some [false, true, false], []) ∧
      (late { o with pairing := .yielded } .left).link.transmitQueue.length = 1 ∧
      between 3004295 = some [true, false] ∧ between 3004296 = some [false, true] := by decide +kernel

/-- The summary and axles of the single-track lorry of chapter 07, with its verdicts at three settings. -/
theorem witness_VerdictFollowsTests :
    let axles := [axle05 0 2050 2050, axle05 0 3050 3050, axle05 0 2900 2900]
    let sm := { summarize site axles517 with gross := 16000, meanSpeed := 5000 }
    let limits := fun (axle gross : Nat) => { entry41 with axleLimit := some axle, grossLimit := some gross }
    screen site (some (limits 5750 44000)) Flags.none axles sm = .axleOver ∧
      screen site (some (limits 6100 44000)) Flags.none axles sm = .clear ∧
      screen site (some (limits 6100 15000)) Flags.none axles sm = .grossOver ∧
      screen site (some (limits 5750 15000)) Flags.none axles sm = .bothOver ∧
      screen site none Flags.none axles { sm with meanSpeed := 4999 } = .notScreened := by decide +kernel

theorem witness_FirstMatchingEntryClasses :
    let sm := summarize site axles517
    sm.spacings.length + 1 = 4 ∧ (∀ e ∈ [entry3, entry41], ∀ c ∈ e.conditions, 1 ≤ c.index) ∧
      classCode (matchedEntry [entry3, entry41] 4 sm) = 41 ∧ classCode (matchedEntry [entry3] 4 sm) = 0 := by
  decide +kernel

/-- A kept notice of station 5. -/
def kept : RemoteNotice :=
  { source := 5, time := 3004099, speed := 20004, load := 3400, index := 1, vehicle := 88, saturated := false
    mismatch := false, accepted := 3010908 }

/-- Vehicle 311 as an owner whose partner has not closed, the hold due at 3,034,080. -/
def owner : Vehicle :=
  { lorry (axle05 3000000 3420 3380) with
    pairing := .owner, peer := 5, peerVehicle := 88, gapDueMark := true, holdDue := some 3034080 }

/-- A notice of the left neighbour, station 3: RIGHT. -/
def notice7 : List Byte :=
  (Body.halfAxle .right 0 20004 3400 1 7 false false).payload (BitVec.ofNat 32 6814)

/-- Axle A2 joined the edge list at 3,010,908, and W_s is 8,192 half-ticks; the owner's hold is due at 3,034,080. -/
theorem witness_WaitsRunOut :
    let s := fun (v : Vehicle) (now : LocalTime) => withEdge (withOpen v (running site now))
    let y := { lorry edgeAxle with pairing := .yielded, peer := 5, peerVehicle := 88 }
    after .edgeWaitExpiry (s (lorry edgeAxle) 3019100) = s (lorry edgeAxle) 3019100 ∧
      (after .edgeWaitExpiry (s (lorry edgeAxle) 3019102)).counter .edgesUnmatched = 1 ∧
      ((after .edgeWaitExpiry (s y 3019102)).assembler.openVehicle.map Vehicle.forwarded) = some 1 ∧
      (after .edgeWaitExpiry (s y 3019102)).boundary.edges = [] ∧
      (after (.yieldHoldExpiry .closingSlot) (withClosing owner (running site 3034080))).counter .recordsProduced =
        1 ∧
      ((after (.yieldHoldExpiry .openSlot) (withOpen owner (running site 3034080))).assembler.openVehicle.map
        (fun v => v.flags.partnerLost)) = some true ∧
      after (.yieldHoldExpiry .openSlot) (withOpen owner (running site 3034078)) =
        withOpen owner (running site 3034078) := by decide +kernel

/-- Vehicle 311 in the closing slot, in each pairing, when its last edge entry resolves, and when another stays; and its yield
hold, with an edge entry. -/
theorem witness_WaitsRunOut_closing :
    let s := fun (v : Vehicle) => withEdge (withClosing v (running site 3019102))
    let t := fun (v : Vehicle) => after .edgeWaitExpiry (s v)
    let two := after .edgeWaitExpiry { s (lorry edgeAxle) with
      boundary := { (s (lorry edgeAxle)).boundary with edges := [edgeEntry, { edgeEntry with tag := 1, joined := 3010909 }] } }
    let o := { owned edgeAxle with yieldClosed := true }
    let y := { o with pairing := .yielded, gapDueMark := true }
    let hold := after (.yieldHoldExpiry .closingSlot) (withEdge (withClosing owner (running site 3034080)))
    (t (lorry edgeAxle)).counter .recordsProduced = 1 ∧ (t (lorry edgeAxle)).counter .edgesUnmatched = 1 ∧
      (t (lorry edgeAxle)).assembler.closingVehicle = none ∧
      two.assembler.closingVehicle.map (fun v => v.flags.edgeUnmatched) = some true ∧
      two.boundary.edges.map EdgeEntry.tag = [1] ∧
      (t o).assembler.closingVehicle.isSome = true ∧ (t { o with gapDueMark := true }).counter .recordsProduced = 1 ∧
      (t y).link.transmitQueue.map TxFrame.body =
        [.transfer 5 88 3004096 19996 none (some 3100) 2 false false, .yieldClosed 5 88 1] ∧
      (t y).counter .vehiclesYielded = 1 ∧
      (t { y with gapDueMark := false }).assembler.closingVehicle.map Vehicle.forwarded = some 1 ∧
      hold.counter .recordsProduced = 1 ∧ hold.counter .edgesUnmatched = 1 ∧ hold.boundary.edges = [] := by
  decide +kernel

/-- Notices refused, kept, kept in a full list, discarded where a vehicle yields to theirs, and past their wait; an edge axle
that fits none. -/
theorem witness_RemoteNoticesKept :
    let full := { base with boundary := { edges := [], remote := ⟨List.replicate 8 kept, List.replicate 7 kept⟩ } }
    let s := fun (now : LocalTime) =>
      { running site now with boundary := { edges := [], remote := ⟨[kept], [kept, kept]⟩ } }
    let y := { lorry edgeAxle with pairing := .yielded, peer := 5, peerVehicle := 88 }
    let far := withEdge (withOpen (lorry edgeAxle) base)
    (after .halfAxle (got .halfAxle 4 notice88 base)) = base ∧
      after .halfAxle (got .halfAxle 5 notice88 (withClosing y base)) = withClosing y base ∧
      (after .halfAxle (got .halfAxle 5 notice88 (withOpen { y with peerVehicle := 89 } base))).boundary.remote.right.length
        = 1 ∧
      (after .halfAxle (got .halfAxle 5 notice88 far)).boundary.remote.right.length = 1 ∧
      ((after .halfAxle (got .halfAxle 5 notice88 full)).boundary.remote.right.map RemoteNotice.vehicle) =
        List.replicate 8 88 ∧
      ((after .halfAxle (got .halfAxle 3 notice7 full)).boundary.remote.left.map RemoteNotice.vehicle) =
        List.replicate 7 88 ++ [7] ∧
      (after .halfAxle (got .halfAxle 3 notice7 full)).counter .noticesExpired = 1 ∧
      (after (.remoteNoticeExpiry .left) (s 3019102)).boundary.remote.left = [] ∧
      (after (.remoteNoticeExpiry .right) (s 3019102)).boundary.remote.right = [kept] ∧
      (after (.remoteNoticeExpiry .right) (s 3019102)).counter .noticesExpired = 1 ∧
      after (.remoteNoticeExpiry .left) (s 3019100) = s 3019100 := by decide +kernel

/-- An edge half by its vehicle's pairing; an admission to an empty list, to a full one, and with a notice that matches. -/
theorem witness_EdgeAxleAdmitted :
    let v := lorry edgeAxle
    let admitted := fun (edges : List EdgeEntry) (right : List RemoteNotice) => ({ withOpen v base with
      boundary := { edges := edges, remote := ⟨[], right⟩ } } : State).admitEdge v edgeAxle .right (loadOf 3100)
    let other := { edgeEntry with vehicle := 9 }
    v.edgeHalf site edgeAxle = some (.right, loadOf 3100) ∧
      ({ v with pairing := .owner, peer := 5 } : Vehicle).edgeHalf site edgeAxle = some (.right, loadOf 3100) ∧
      ({ v with pairing := .owner, peer := 3 } : Vehicle).edgeHalf site edgeAxle = none ∧
      v.takePartnerLost.edgeHalf site edgeAxle = none ∧
      (admitted [] []).boundary.edges = [{ edgeEntry with joined := 4000000 }] ∧
      (admitted [] []).link.transmitQueue.map TxFrame.body =
        [.halfAxle .right 3004096 19996 3100 2 311 false false] ∧
      (admitted [other, other, other, other] []).boundary.edges.length = 1 ∧
      (admitted [] [kept]).boundary = { edges := [], remote := ⟨[], []⟩ } ∧
      ((admitted [] [{ kept with time := 3003896 }]).assembler.openVehicle.map Vehicle.pairing) = some .owner ∧
      ((admitted [] [{ kept with time := 3003895 }]).assembler.openVehicle.map Vehicle.pairing) =
        some .unpaired := by decide +kernel

/-- Station 4 owns by its larger index, and yields to a notice of index 3; it takes the nearest of two entries; and in the
closing slot with its gap due mark and an entry of its other side it gets a hold due time and EDGE-UNMATCHED. A later match
fills the axle of an owner and leaves a yielder alone. -/
theorem witness_FirstMatchDecidesOwner :
    let yields := (Body.halfAxle .left 0 20004 3400 3 88 false false).payload (BitVec.ofNat 32 6814)
    let s := withEdge (withOpen (lorry edgeAxle) (got .halfAxle 5 yields (running site 3010917)))
    let near := { noticeState with boundary := { noticeState.boundary with
      edges := [{ edgeEntry with tag := 1, time := 3004000 }, edgeEntry, { edgeEntry with tag := 2 }] } }
    let late := { lorry edgeAxle with gapDueMark := true }
    let other := { edgeEntry with side := .left, tag := 1 }
    let t := fun (v : Vehicle) => (({ withClosing v base with boundary := { base.boundary with
      edges := [other, edgeEntry] } } : State).makeMatch edgeEntry kept)
    let first := (t late).assembler.closingVehicle.getD late
    ((after .halfAxle noticeState).assembler.openVehicle.map Vehicle.pairing) = some .owner ∧
      (after .halfAxle s) = { withOpen { lorry edgeAxle with pairing := .yielded, peer := 5, peerVehicle := 88 }
        (running site 3010917) with boundary := { edges := [], remote := ⟨[], []⟩ } } ∧
      (after .halfAxle near).boundary.edges.map EdgeEntry.tag = [1, 2] ∧
      first.pairing = .owner ∧ first.holdDue = some (4000000 + 16384) ∧ first.flags.edgeUnmatched = true ∧
      first.axles.map Axle.load = [6500] ∧ (t late).counter .edgesUnmatched = 1 ∧ (t late).boundary.edges = [] ∧
      ((t (owned edgeAxle)).assembler.closingVehicle.map (fun v => (v.pairing, v.axles.map Axle.load))) =
        some (.owner, [6500]) ∧
      (t { late with pairing := .yielded }).assembler.closingVehicle = some { late with pairing := .yielded } := by
  decide +kernel

/-- A vehicle whose second axle waits in the edge list yields and forwards the first, after the axle of an entry of its other
side; then one placed later. -/
theorem witness_YielderForwards :
    let first := { axle05 3000000 3420 3380 with tag := 1 }
    let third := { edgeAxle with tag := 2, left := some (loadOf 3000), right := none }
    let v := { lorry edgeAxle with axles := [first, edgeAxle, third] }
    let y := { v with pairing := .yielded, peer := 5, peerVehicle := 88 }
    let t := fun (s : State) => ({ withOpen v s with boundary := { base.boundary with
      edges := [{ edgeEntry with side := .left, tag := 2 }, edgeEntry] } } : State).makeMatch edgeEntry
        { kept with index := 3 }
    (t base).assembler.openVehicle = some { y with forwarded := 2 } ∧ (t base).boundary.edges = [] ∧
      (t base).link.transmitQueue.map TxFrame.body =
        [.transfer 5 88 3004096 19996 (some 3000) none 2 false false,
          .transfer 5 88 3000000 24576 (some 3420) (some 3380) 1 false false] ∧
      (t (due (.mute .fromRunning))).assembler.openVehicle = some y ∧
      (((withClosing v (withEdge base)).makeMatch edgeEntry { kept with index := 3 }).assembler.closingVehicle.map
        Vehicle.forwarded) = some 2 ∧
      (((withOpen y base).afterPlacement first).assembler.openVehicle.map Vehicle.forwarded) = some 1 ∧
      (withOpen y (due (.mute .fromRunning))).afterPlacement first = withOpen y (due (.mute .fromRunning)) := by
  decide +kernel

/-- Vehicle 310 in the closing slot with an edge axle, in each pairing, when vehicle 311 must enter. -/
theorem witness_OccupiedClosingSlot :
    let w := { lorry edgeAxle with number := 310 }
    let s := fun (w : Vehicle) => { withClosing w base with
      boundary := { edges := [{ edgeEntry with vehicle := 310 }], remote := ⟨[], []⟩ } }
    let t := fun (w : Vehicle) => (s w).enterClosing (lorry edgeAxle)
    let o := { w with pairing := .owner, peer := 5, peerVehicle := 88, gapDueMark := true }
    let flags := fun (w : Vehicle) => (t w).link.transmitQueue.map (fun f => match f.body with
      | .vehicle r => (r.number, r.flags.edgeUnmatched, r.flags.partnerLost)
      | _ => (0, false, false))
    flags w = [(310, true, false)] ∧ (t w).counter .edgesUnmatched = 1 ∧ (t w).boundary.edges = [] ∧
      (t w).assembler.closingVehicle = some (lorry edgeAxle) ∧
      flags { o with yieldClosed := true } = [(310, true, false)] ∧ flags o = [(310, true, true)] ∧
      (t { o with pairing := .yielded }).link.transmitQueue.map TxFrame.body =
        [.transfer 5 88 3004096 19996 none (some 3100) 2 false false, .yieldClosed 5 88 1] ∧
      (t { o with pairing := .yielded }).counter .vehiclesYielded = 1 := by decide +kernel

/-- A TRANSFER to station 4's vehicle 311 with an event age of 3,000. -/
def transferOf (owner speed : Nat) (left right : Option Nat) (age : Nat) : List Byte :=
  (Body.transfer owner 311 0 speed left right 2 false false).payload (BitVec.ofNat 32 age)

theorem witness_TransferTaken :
    let s := fun (p : List Byte) (now : LocalTime) => withOpen (owned edgeAxle) (got .transfer 5 p (running site now))
    let inserted := (after .transfer (s (transferOf 4 20004 (some 3300) (some 3250) 3000) 3007101)).assembler.openVehicle
    let merged := (after .transfer (s (transferOf 4 20004 (some 3380) none 3000) 3007300)).assembler.openVehicle
    (after .transfer (s (transferOf 6 20004 (some 3300) none 3000) 3007101)).assembler.openVehicle =
        some (owned edgeAxle) ∧
      (after .transfer (s (transferOf 4 999 (some 3300) none 3000) 3007101)).counter .framesDiscarded = 1 ∧
      (after .transfer (s (transferOf 4 1000 none none 3000) 3007101)).counter .framesDiscarded = 1 ∧
      (after .transfer (got .transfer 5 (transferOf 4 70000 (some 1) none 3000) base)).counter .lateTransfers = 1 ∧
      inserted.map (fun v => (v.axles.map Axle.load, v.lastTime)) = some ([3100, 6550], 3004097) ∧
      merged.map (fun v => (v.axles.map Axle.load, v.lastTime)) = some ([6480], 3004096) := by decide +kernel

/-- Transfers of one half: into the earlier of two axles at equal distance, which leaves the edge list; of a RIGHT half; into
a closing vehicle that then completes; and one of two halves before an axle. -/
theorem witness_TransferTaken_merged :
    let put := fun (l r : Option Nat) => got .transfer 5 (transferOf 4 20004 l r 3000) (running site 3007300)
    let first := { edgeAxle with time := 3004196 }
    let second := { edgeAxle with tag := 1, time := 3004396 }
    let both := { owned edgeAxle with axles := [first, second], nextTag := 2, lastTime := 3004396 }
    let near := after .transfer { withOpen both (put (some 3380) none) with
      boundary := { edges := [edgeEntry, { edgeEntry with tag := 1 }], remote := ⟨[], []⟩ } }
    let lefts := { edgeAxle with left := some (loadOf 3200), right := none }
    let closes := after .transfer
      (withEdge (withClosing { owned edgeAxle with gapDueMark := true, yieldClosed := true } (put (some 3380) none)))
    let loads := fun (s : State) => s.assembler.openVehicle.map (fun v => (v.axles.map Axle.load, v.lastTime))
    loads near = some ([6480, 3100], 3004396) ∧ near.boundary.edges.map EdgeEntry.tag = [1] ∧
      near.counter .edgesUnmatched = 0 ∧
      loads (after .transfer (withOpen (owned lefts) (put none (some 3380)))) = some ([6580], 3004096) ∧
      closes.counter .recordsProduced = 1 ∧ closes.boundary.edges = [] ∧ closes.assembler.closingVehicle = none ∧
      loads (after .transfer (withOpen both (put (some 1) (some 2)))) = some ([3100, 3, 3100], 3004396) := by
  decide +kernel

/-- Transfers that no vehicle takes, one that a remote half covers at the limit of K, and one for a full vehicle. -/
theorem witness_TransferTaken_late :
    let s := fun (v : Vehicle) (r : Option Nat) => withOpen v
      (got .transfer 5 (transferOf 4 20004 (some 3300) r 3000) (running site 3007300))
    let late := fun (v : Vehicle) => (after .transfer (s v none)).counter .lateTransfers
    let covering := owned { edgeAxle with right := some { loadOf 3100 with remote := true } }
    let longest := { roadTrain with number := 311, pairing := .owner, peer := 5 }
    late { owned edgeAxle with number := 312 } = 1 ∧ late { owned edgeAxle with peer := 3 } = 1 ∧
      late (owned edgeAxle).takePartnerLost = 1 ∧ late (lorry edgeAxle) = 1 ∧ late covering = 1 ∧
      ((after .transfer (s covering none)).assembler.openVehicle.map Vehicle.received) = some 1 ∧
      ((after .transfer (s longest (some 1))).assembler.openVehicle.map
        (fun v => (v.axles.length, v.flags.truncated))) = some (12, true) := by decide +kernel

theorem witness_YieldClosedTaken :
    let s := fun (forwarded : Nat) => withOpen { owned edgeAxle with received := 3 }
      (got .yieldClosed 5 ((Body.yieldClosed 4 311 forwarded).payload 0) base)
    let mark := fun (t : State) => t.assembler.openVehicle.map (fun v => (v.yieldClosed, v.flags.incomplete))
    mark (after .yieldClosed (s 3)) = some (true, false) ∧ mark (after .yieldClosed (s 4)) = some (true, true) ∧
      after .yieldClosed (got .yieldClosed 5 ((Body.yieldClosed 4 311 3).payload 0) base) = base ∧
      after .yieldClosed (got .yieldClosed 5 ((Body.yieldClosed 6 311 3).payload 0) base) = base := by decide +kernel

/-- The closing OWNER vehicle of chapter 06: its gap due mark set, still clear, and with an edge axle. -/
theorem witness_YieldClosedTaken_closing :
    let s := fun (v : Vehicle) => withClosing v (got .yieldClosed 5 ((Body.yieldClosed 4 311 1).payload 0) base)
    let v := { owned edgeAxle with received := 1, gapDueMark := true }
    let mark := fun (t : State) => t.assembler.closingVehicle.map (fun v => (v.yieldClosed, v.flags.incomplete))
    (after .yieldClosed (s v)).counter .recordsProduced = 1 ∧ mark (after .yieldClosed (s v)) = none ∧
      mark (after .yieldClosed (s { v with gapDueMark := false, received := 0 })) = some (true, true) ∧
      mark (after .yieldClosed (withEdge (s v))) = some (true, false) := by decide +kernel

theorem witness_PartnerRestartTaken :
    let s := fun (v : Vehicle) =>
      { withOpen v (got .announce 5 [] base) with boundary := { edges := [], remote := ⟨[kept], [kept]⟩ } }
    let v := fun (t : State) => t.assembler.openVehicle.map (fun v => (v.pairing, v.flags.partnerLost))
    v (after .announce (s (owned edgeAxle))) = some (.owner, true) ∧
      v (after .announce (s { owned edgeAxle with pairing := .yielded })) = some (.unpaired, true) ∧
      v (after .announce (s { owned edgeAxle with peer := 3 })) = some (.owner, false) ∧
      (after .announce (s (lorry edgeAxle))).boundary.remote.right = [] ∧
      after .announce (got .announce 5 [] base) = base := by decide +kernel

/-- The edge list's length, the edge axles unmatched, the records produced and the transmit queue's length. -/
def edgeCounts (s : State) : List Nat :=
  [s.boundary.edges.length, s.counter .edgesUnmatched, s.counter .recordsProduced, s.link.transmitQueue.length]

/-- Vehicle 311 with an edge axle, closing, loses its partner: the entry leaves the list and is counted, and the vehicle
completes, but an OWNER one without its gap due mark stays, and so does one of another peer. -/
theorem witness_PartnerRestartTaken_closing :
    let o := owned edgeAxle
    let t := fun (v : Vehicle) => after .announce (withClosing v (withEdge (got .announce 5 [] base)))
    edgeCounts (t { o with gapDueMark := true }) = [0, 1, 1, 1] ∧
      edgeCounts (t { o with pairing := .yielded }) = [0, 1, 1, 1] ∧ edgeCounts (t o) = [0, 1, 0, 0] ∧
      ((t o).assembler.closingVehicle.map (fun v => v.flags.partnerLost && v.flags.edgeUnmatched)) = some true ∧
      edgeCounts (t { o with peer := 3 }) = [1, 0, 0, 0] := by decide +kernel

/-- The open vehicle 311 with an edge axle loses its partner, as an OWNER and as a YIELDED one; and vehicle 312, open, loses
its own beside the closing 311. -/
theorem witness_PartnerRestartTaken_open :
    let o := owned edgeAxle
    let s := withEdge (got .announce 5 [] base)
    let y := after .announce (withOpen { o with pairing := .yielded } s)
    let both := after .announce (withOpen { o with number := 312 } (withClosing o s))
    let lost := fun (v : Option Vehicle) => v.map (fun v => (v.flags.partnerLost, v.flags.edgeUnmatched))
    edgeCounts (after .announce (withOpen o s)) = [0, 1, 0, 0] ∧ edgeCounts y = [0, 1, 0, 0] ∧
      lost y.assembler.openVehicle = some (true, true) ∧
      y.assembler.openVehicle.map Vehicle.pairing = some .unpaired ∧
      lost both.assembler.openVehicle = some (true, false) ∧
      lost both.assembler.closingVehicle = some (true, true) := by decide +kernel

/-- The camera line before and at each due time, the overload line in each mode, and each condition of the fault line. -/
theorem witness_OutputLinesRun :
    after .triggerDue (outputs 10045055 [10045056] .idle none) = outputs 10045055 [10045056] .idle none ∧
      (after .pulseEnd (outputs 10043360 [10045056] .pulse (some 10043360))).output.cameraEnd = some 10043851 ∧
      (after .gapEnd (outputs 10043851 [10045056] .gap (some 10043851))).output.camera = .idle ∧
      (after .gapEnd (outputs 10043851 [] .gap (some 10043851))).output.cameraEnd = none ∧
      after .gapEnd (outputs 10043851 [] .gap none) = outputs 10043851 [] .gap none ∧
      (latched.takeVerdict .notScreened) = latched ∧
      ((running { site with overloadMode := .follow } 0).takeVerdict .bothOver).output.overload = true ∧
      ((running site 0).takeVerdict .bothOver).output.overload = false ∧ base.faultLine = false ∧
      (due .halted).faultLine = true ∧ (due (.mute .fromRunning)).faultLine = true ∧
      (saving .fault 2).faultLine = true := by decide +kernel

theorem witness_TriggerScheduled :
    let full := outputs 10040000 [1, 2, 3, 4] .idle none
    full.scheduleTrigger (passing 10016000 20000) Flags.none .clear = (Flags.none, full) ∧
      (full.scheduleTrigger (passing 10016000 20000) Flags.none .bothOver).1.triggerLost = true ∧
      ((outputs 10043033 [10043033] .idle none).scheduleTrigger (passing 10016000 20000) Flags.none
        .axleOver).1.lateTrigger = true ∧
      ((outputs 10043032 [10043033] .idle none).scheduleTrigger (passing 10016000 20000) Flags.none
        .axleOver).2.output.triggers = [10043033, 10043033] := by decide +kernel

/-- Band 4 of chapter 08 before vehicle 1,205. -/
def tracking (store : StoreState) (count : Nat) : State :=
  { running { site with tracking := true } 7340000 with
    drift := { State.reset.drift with
      store := store
      bands := State.reset.drift.bands.set 4 { correction := 4137, count := count, sum := 89941, updates := 11 } } }

/-- Vehicle 1,205: its first axle weighs 6,120 kg. -/
def vehicle1205 : Vehicle := { joined with axles := [axle05 1000000 3060 3060] }

theorem witness_ReferenceSampleUpdatesBand :
    let d := fun (store : StoreState) (count : Nat) =>
      ((tracking store count).driftStage vehicle1205 Flags.none 41 (summarize site axles517)).drift
    let odd := (({ tracking .idle 15 with localTime := 7340001 } : State).driftStage vehicle1205 Flags.none 41
      (summarize site axles517)).drift
    (d .idle 15).bands[4] = { correction := 4153, count := 0, sum := 0, updates := 12 } ∧
      (d .idle 15).phaseDue = some 7372768 ∧ (d .idle 15).store = .erasing ∧ odd.phaseAt = 7340002 ∧
      (d .idle 15).snapshot.map (fun c => c.corrections[4]?) = some (some 4153) ∧ (d .erasing 15).again = true ∧
      (d .fault 15).store = .fault ∧ (d .idle 14).bands[4].sum = 96000 := by decide +kernel

/-- Vehicle 1,205 is no reference sample with tracking off, as another class, with a flag that bars it, past a limit of speed
or gross, without an axle, with a single half, or one kilogram outside N/2 to 2N; at those limits it is one. -/
theorem witness_ReferenceSampleUpdatesBand_fails :
    let s := tracking .idle 14
    let sm := summarize site axles517
    let fails := fun (s : State) (v : Vehicle) (f : Flags) (cls : Nat) (sm : Summary) =>
      decide (s.driftStage v f cls sm = s)
    let first := fun (l r : Nat) => { vehicle1205 with axles := [axle05 1000000 l r] }
    fails (running site 7340000) vehicle1205 Flags.none 41 sm = true ∧ fails s vehicle1205 Flags.none 40 sm = true ∧
      fails s vehicle1205 { Flags.none with tempHeld := true } 41 sm = true ∧
      fails s vehicle1205 { Flags.none with lateTrigger := true } 41 sm = false ∧
      fails s vehicle1205 Flags.none 41 { sm with meanSpeed := 999 } = true ∧
      fails s vehicle1205 Flags.none 41 { sm with gross := 786421 } = true ∧
      fails s { vehicle1205 with axles := [] } Flags.none 41 sm = true ∧ fails s (lorry edgeAxle) Flags.none 41 sm = true ∧
      fails s (first 3049 0) Flags.none 41 sm = true ∧ fails s (first 3050 0) Flags.none 41 sm = false ∧
      fails s (first 6100 6101) Flags.none 41 sm = true ∧ fails s (first 6100 6100) Flags.none 41 sm = false := by
  decide +kernel

/-- Vehicles of 1 and of 12 axles; speeds at the limit of UNSTEADY and past it; a single-track vehicle; a reference vehicle
over its limit, which triggers and updates its band. -/
theorem witness_CompletionFormsRecord :
    let steady := fun (speed : Nat) => (summarize site
      [{ axle05 0 1 1 with speed := speed }, { axle05 2400 1 1 with speed := 25000 }]).unsteady
    let s := { tracking .idle 15 with control := { (tracking .idle 15).control with params :=
      { site with tracking := true, refClass := 0, camera := 30000, siteAxleLimit := 5000 } } }
    let t := s.complete { vehicle1205 with latched := { vehicle1205.latched with source := .own } }
    roadTrain.axles.length = 12 ∧ (lorry edgeAxle).axles.length = 1 ∧ steady 20000 = false ∧ steady 19999 = true ∧
      (summarize site [edgeAxle]).singleTrack = true ∧ t.output.triggers.length = 1 ∧
      t.drift.bands[4].updates = 12 ∧ t.counter .recordsProduced = 1 ∧
      t.link.transmitQueue.map (fun f => f.body.kind) = [.vehicle] := by decide +kernel

/-- Each phase at its instant, at the due time and before it, and VERIFY at a later sample instant. -/
theorem witness_SaveRuns :
    let s := saving .verifying 7352482
    let again := { s with drift := { s.drift with again := true } }
    (after .programReady (saving .programming 7352480)).drift.store = .verifying ∧
      (after .eraseTimeout (saving .erasing 7372768)).drift.store = .fault ∧
      (after .eraseTimeout (saving .erasing 7372766)).drift.store = .erasing ∧
      (after .programTimeout (saving .programming 7372768)).drift.snapshot = none ∧
      (after (.verify snap.bytes) s).drift.store = .idle ∧
      (after (.verify snap.bytes) again).drift.phaseDue = some 7385250 ∧
      ((after (.verify snap.bytes) again).drift.snapshot.map Correction.saveCount) = some 39 ∧
      after (.verify []) { s with localTime := 7352484 } = { s with localTime := 7352484 } := by decide +kernel

/-- A record, and every field at its greatest value. -/
theorem witness_RecordsAndPayloadsReadBack :
    snap.corrections.length = 8 ∧ snap.updates.length = 8 ∧ (∀ x ∈ snap.corrections, x < 65536) ∧
      (∀ x ∈ snap.updates, x < 65536) ∧ readCorrection snap.bytes = snap ∧
      halfAxleFields ((Body.halfAxle .right 0 16777215 65535 255 65535 true false).payload 65535) =
        { side := some .right, age := 65535, speed := 16777215, load := 65535, index := 255, vehicle := 65535
          saturated := true, mismatch := false } ∧
      transferFields ((Body.transfer 255 65535 0 1 (some 65534) none 255 false true).payload 65535) =
        { owner := 255, vehicle := 65535, age := 65535, speed := 1, left := some 65534, right := none, index := 255
          saturated := false, mismatch := true } ∧
      temperatureValue ((Body.temperature (-32768)).payload 0) = -32768 := by decide +kernel

/-- A record of two axles whose fields meet the limits, an ANNOUNCE and a STATUS. -/
theorem witness_RecordsAndPayloadsReadBack_sent :
    let marked := { (axle05 0 60000 5535).entry with straddled := true }
    let r := { recordOf 65535 with
      axles := [(axle05 0 1 1).entry, marked], spacings := [25500], temp := -400, source := .held, band := 7
      flags := { Flags.none with incomplete := true, correctionDefault := true } }
    let v := (Body.vehicle r).payload 0
    let s := (Body.status true .hold true false false true false (Vector.replicate 16 65535)).payload 0x01020304
    let a := (Body.announce 2 3 5 .badCheck true false ⟨true, false, true⟩ 65535).payload 0
    r.axles.length = 2 ∧ v.length = 34 ∧ (∀ a ∈ r.axles, a.load < 65536) ∧ u16At v 10 = 32769 ∧ s16At v 21 = -400 ∧
      byteAt v 23 = 55 ∧ u16At v 29 = 65535 ∧ byteAt v 31 = 49 ∧ u16At v 32 = 25500 ∧
      s.take 8 = [1, 0x4B, 1, 2, 3, 4, 0xFF, 0xFF] ∧ s.length = 38 ∧ a = [2, 0x35, 0x14, 5, 0xFF, 0xFF] := by
  decide +kernel

/-- A good frame; one with a wrong check character, class, length or source; and a COMMAND, which no station forms. -/
theorem witness_FormedFrameIsGood :
    let good := frameBytes 15 (.temperature 315) 0
    let wrong := fun (bytes : List Byte) => bytes ++ [crc8 bytes]
    checkFrame good = some (.temperature, 15, [0x01, 0x3B]) ∧ checkFrame (good.set 5 0) = none ∧
      checkFrame (wrong [0x84, 3, 2, 1, 59]) = none ∧ checkFrame (wrong [0xA4, 3, 3, 1, 59]) = none ∧
      checkFrame (wrong [0xA4, 16, 2, 1, 59]) = none ∧ checkFrame (wrong [0xA4, 3, 1, 59]) = none ∧
      checkFrame (wrong [0x43, 0, 2, 0, 1]) = some (.command, 0, [0, 1]) ∧
      (({ recordOf 1 with axles := [(axle05 0 1 1).entry] } : Record).axles.length = 1) ∧
      base.link.receiver = .ready := by decide +kernel

/-- The station with its line monitor and its receiver in given states. -/
def line (m : Monitor) (r : Receiver) : State := { base with link := { base.link with monitor := m, receiver := r } }

theorem witness_LineMonitorMoves :
    let sends := fun (own : Bool) => { line .busy .inFrame with
      link := { (line .busy .inFrame).link with transmitter := .sending, bufferOwn := own } }
    (after .lineBusy (line .idle .ready)).link.monitor = .busy ∧
      (after .lineIdle (line .busy .hunt)).link.receiver = .ready ∧
      (after .lineIdle (line .busy .ready)).link.monitor = .idle ∧
      (after .lineBreak (line .busy .ready)).link.monitor = .breakSeen ∧
      (after .lineBreak (line .busy .inFrame)).counter .framesDiscarded = 1 ∧
      (after .lineBreak (sends true)).counter .framesDiscarded = 0 ∧
      (after .lineBreak (sends false)).counter .framesDiscarded = 1 ∧
      (after .breakLineReleased (line .breakSeen .hunt)).link.monitor = .busy ∧
      (after .lineFault (line .breakSeen .hunt)).counter .lineFaults = 1 ∧
      (after .lineFaultEnd (line .lineFault .hunt)).link.monitor = .idle ∧ after .lineIdle held = held := by
  decide +kernel

/-- The station in a frame whose buffer holds `n` characters. -/
def inFrame (n : Nat) : State :=
  { base with link := { base.link with receiver := .inFrame, monitor := .busy, buffer := List.replicate n 0 } }

theorem witness_CharacterReceived :
    let glitch := { char true 0xA4 true with start := ⟨false, true, true⟩ }
    let noisy := { char false 96 true with start := ⟨false, false, true⟩ }
    let atStage := fun (t : Transmitter) =>
      { line .busy .ready with link := { (line .busy .ready).link with transmitter := t } }
    let discards := fun (r : Station) (t : Transmitter) (own : Bool) =>
      (after (.receiveCharacter (char false 1 false) 1) { inFrame 2 with
        control := { base.control with station := r }
        link := { (inFrame 2).link with transmitter := t, bufferOwn := own } }).counter .framesDiscarded
    after (.receiveCharacter (char false 0 true) 1) (line .busy .hunt) = line .busy .hunt ∧
      after (.receiveCharacter glitch 1) (line .busy .ready) = line .busy .ready ∧
      (after (.receiveCharacter (char true 0xA4 true) 1) (line .busy .ready)).link.bufferStamp = 3999999 ∧
      (after (.receiveCharacter (char false 0xA4 true) 1) (line .busy .ready)).counter .framesDiscarded = 1 ∧
      (after (.receiveCharacter noisy 1) (inFrame 2)).link.buffer = [0, 0, 96] ∧
      (after (.receiveCharacter noisy 1) (inFrame 2)).link.bufferNoise = true ∧
      (after (.receiveCharacter (char false 97 true) 1) (inFrame 2)).link.receiver = .hunt ∧
      (after (.receiveCharacter (char false 1 true) 1) (inFrame 99)).link.buffer.length = 100 ∧
      (after (.receiveCharacter (char false 1 true) 1) (inFrame 100)).counter .framesDiscarded = 1 ∧
      discards .starting .idle false = 0 ∧ discards .running .breaking false = 1 ∧
      discards .running .breaking true = 0 ∧ discards .running .sending true = 0 ∧
      discards .running .arbitrating true = 1 ∧
      (after (.receiveCharacter (char true 0xA4 true) 1) (atStage .arbitrating)).link.bufferOwn = true ∧
      (after (.receiveCharacter (char false 0 false) 1) (atStage .breaking)).counter .framesDiscarded = 0 ∧
      after (.receiveCharacter (char true 0xA4 true) 1) held = held := by decide +kernel

/-- The station at the end of station `source`'s TEMPERATURE, with `n` frames in its receive queue. -/
def ended (source n : Nat) (own : Bool) : State :=
  { base with link := { base.link with
      monitor := .busy, receiver := .inFrame, buffer := frameBytes source (.temperature 315) 0, bufferStamp := 7
      ownSent := own, receiveQueue := List.replicate n (gotFrame .temperature 3 [1, 59] base) } }

theorem witness_GoodFrameTaken :
    let bad := { ended 3 0 false with link := { (ended 3 0 false).link with buffer := [0xA4, 3, 2, 1, 59, 0] } }
    let command := { ended 3 0 false with
      link := { (ended 3 0 false).link with buffer := [0x43, 0, 2, 0, 1, crc8 [0x43, 0, 2, 0, 1]] } }
    let muted := { ended 4 0 false with
      control := { base.control with station := .mute .fromHalted }
      link := { (ended 4 0 false).link with monitor := .lineFault } }
    let started := { ended 3 0 false with control := { base.control with station := .starting } }
    (after .lineIdle (ended 3 7 false)).link.receiveQueue.length = 8 ∧
      (after .lineIdle (ended 3 8 false)).counter .receiveOverruns = 1 ∧
      (after .lineIdle (ended 0 0 false)).link.receiveQueue.length = 1 ∧
      (after .lineIdle (ended 4 0 true)).control.station = .running ∧
      (after .lineIdle (ended 4 0 false)).control.station = .mute .fromRunning ∧
      (after .lineIdle bad).counter .framesDiscarded = 1 ∧
      ((after .lineIdle command).link.receiveQueue.map RxFrame.kind) = [.command] ∧
      (after .lineFaultEnd muted).link.monitor = .idle ∧ (after .lineFaultEnd muted).link.receiveQueue = [] ∧
      (after .lineIdle started).link.receiveQueue = [] := by decide +kernel

/-- The station with one frame to send, its transmitter and its frame in given states, the frame in the buffer its own. -/
def sending (t : Transmitter) (f : TxFrame) (errors : Nat) : State :=
  { base with link := { base.link with
      transmitQueue := [f], transmitter := t, consecutiveErrors := errors, receiver := .inFrame
      bufferOwn := true, bufferNoise := true } }

/-- A notice of an event at a local time. -/
def noticeFrame (event : LocalTime) : TxFrame := frame (.halfAxle .left event 1 1 1 1 false false) false

theorem witness_AttemptArbitrates :
    let s := fun (f : TxFrame) => sending .waitIdle f 0
    (after (.transmitAttempt false) (s (noticeFrame 3934465))).link.transmitter = .arbitrating ∧
      (after (.transmitAttempt false) (s (frame (.temperature 315) false))).drivenBits.length = 66 ∧
      (after (.transmitAttempt true) { s (noticeFrame 3934465) with link :=
        { (s (noticeFrame 3934465)).link with monitor := .busy } }).link.bufferOwn = false ∧
      (after (.transmitAttempt false) (s (noticeFrame 3934464))).counter .transmitDrops = 1 ∧
      (after (.transmitAttempt true) { s (noticeFrame 0) with link :=
        { (s (noticeFrame 0)).link with monitor := .lineFault } }).link.transmitter = .waitIdle ∧
      (after .arbitrationLoss (sending .arbitrating (frame (.temperature 1) true) 0)).link.transmitter = .waitIdle ∧
      (after .arbitrationWon (sending .arbitrating (frame (.temperature 1) true) 0)).link.transmitter = .sending := by
  decide +kernel

/-- The station with several frames in its transmit queue. -/
def sendingOf (t : Transmitter) (q : List TxFrame) : State :=
  { sending t (frame (.temperature 1) false) 0 with
    link := { (sending t (frame (.temperature 1) false) 0).link with transmitQueue := q } }

/-- Two aged notices ahead of a third frame, then three aged ones alone; and a lost frame behind one of a higher class. -/
theorem witness_AttemptArbitrates_queue :
    let aged := noticeFrame 3934464
    let t := after (.transmitAttempt false) (sendingOf .waitIdle [aged, aged, frame (.temperature 1) false])
    let u := after (.transmitAttempt false) (sendingOf .waitIdle [aged, aged, aged])
    let lost := after .arbitrationLoss (sendingOf .arbitrating [noticeFrame 4000000, frame (.temperature 1) true])
    t.counter .transmitDrops = 2 ∧ t.link.transmitQueue = [frame (.temperature 1) true] ∧
      t.link.transmitter = .arbitrating ∧ u.counter .transmitDrops = 3 ∧ u.link.transmitter = .idle ∧
      lost.link.transmitQueue = [noticeFrame 4000000, frame (.temperature 1) false] := by decide +kernel

theorem witness_AttemptEnds :
    let f := fun (n : Nat) => { frame (.temperature 1) true with errors := n }
    let foreign := fun (t : Transmitter) =>
      { sending t (f 0) 3 with link := { (sending t (f 0) 3).link with bufferOwn := false } }
    (after .bitError (sending .sending (f 0) 2)).link.transmitter = .breaking ∧
      (after .bitError (sending .sending (f 0) 3)).control.station = .mute .fromRunning ∧
      (after .breakingEnd (sending .breaking (f 1) 2)).link.transmitQueue.map TxFrame.errors = [2] ∧
      (after .breakingEnd (sending .breaking (f 2) 2)).counter .transmitDrops = 1 ∧
      (after .bitError (sending .arbitrating (f 0) 2)).link.transmitter = .breaking ∧
      (after .bitError { sending .arbitrating (f 0) 3 with
        control := { base.control with station := .halted } }).control.station = .mute .fromHalted ∧
      (after (.frameSentWhole false) (sending .sending (f 0) 3)).link.ownSent = true ∧
      (after (.frameSentWhole false) (sending .sending (f 0) 3)).link.consecutiveErrors = 3 ∧
      (after (.frameSentWhole false) (foreign .sending)).link.ownSent = false ∧
      (after (.frameSentWhole false) (foreign .sending)).link.consecutiveErrors = 0 ∧
      (after (.frameSentWhole true) (foreign .sending)).link.consecutiveErrors = 3 := by decide +kernel

/-- The frame under attempt stands behind one of a higher class that entered during the attempt. -/
theorem witness_AttemptEnds_queue :
    let f := fun (n : Nat) => { frame (.temperature 1) true with errors := n }
    let new := noticeFrame 4000000
    let s := fun (t : Transmitter) (n : Nat) => sendingOf t [new, f n]
    (after .breakingEnd (s .breaking 1)).link.transmitQueue = [new, { frame (.temperature 1) false with errors := 2 }] ∧
      (after .breakingEnd (s .breaking 2)).link.transmitQueue = [new] ∧
      (after .breakingEnd (s .breaking 2)).counter .transmitDrops = 1 ∧
      (after (.frameSentWhole false) (s .sending 0)).link.transmitQueue = [new] ∧
      (after (.frameSentWhole false) (s .sending 0)).link.transmitter = .waitIdle := by decide +kernel

/-- The bits of a frame go on from ARBITRATING into SENDING; a bit error puts 16 dominant bits in their place, which the
break's end releases, and a loss, the fourth error and a frame sent whole release the line (R183 to R186). -/
theorem test_break_bits :
    let s := after (.transmitAttempt false) (sending .waitIdle (frame (.temperature 315) false) 0)
    let won := after .arbitrationWon s
    let fourth := { won with link := { won.link with consecutiveErrors := 3 } }
    won.drivenBits = s.drivenBits ∧ won.drivenBits.length = 66 ∧ (after .arbitrationLoss s).drivenBits = [] ∧
      (after .bitError won).drivenBits = List.replicate 16 false ∧ (after .bitError won).link.driven = [] ∧
      (after .breakingEnd (after .bitError won)).drivenBits = [] ∧ (after .bitError fourth).drivenBits = [] ∧
      (after (.frameSentWhole false) won).drivenBits = [] := by decide +kernel

/-- A frame of another node's stands in the buffer when an attempt begins on an edge; the station meets a bit error in its
own header, and its break spoils that frame, which it counts (R178, R179, R182). -/
theorem test_foreign_frame_counted_in_own_break :
    let s := { sending .waitIdle (frame (.temperature 1) false) 0 with
      link := { (sending .waitIdle (frame (.temperature 1) false) 0).link with monitor := .busy } }
    let broken := after .bitError (after (.transmitAttempt true) s)
    broken.link.transmitter = .breaking ∧ broken.link.receiver = .inFrame ∧
      (after (.receiveCharacter (char false 0 false) 1) broken).counter .framesDiscarded = 1 := by decide +kernel

theorem witness_TransmitQueueTakesFrame :
    let full := { base with link := { base.link with transmitQueue := fullQueue, transmitter := .sending } }
    fullQueue.Pairwise (fun f g => f.body.kind.priority ≤ g.body.kind.priority) ∧ fullQueue.length = 12 ∧
      (queueTake (.vehicle (recordOf 12)) (fullQueue.take 11)).1.map (fun f => f.body.kind.priority) =
        List.replicate 11 3 ++ [5] ∧
      queueTake (.temperature 2) (List.replicate 12 (frame (.vehicle (recordOf 1)) false)) =
        (List.replicate 12 (frame (.vehicle (recordOf 1)) false), true) ∧
      queueTake (.temperature 2) [frame (.temperature 1) true] = ([frame (.temperature 1) true], true) ∧
      (full.enqueue (.yieldClosed 1 1 1)).counter .transmitDrops = 1 ∧
      (full.enqueue (.yieldClosed 1 1 1)).link.transmitQueue.length = 12 ∧
      (base.enqueue (.yieldClosed 1 1 1)).link.transmitter = .waitIdle ∧
      (due (.mute .fromRunning)).produce (.yieldClosed 1 1 1) = due (.mute .fromRunning) := by decide +kernel

end Sys2Proof.Tests
end

section
/-!
# The temperature factor by its cases (R45)

`factorFrom` walks the prepared curve. On a rising curve the walk passes every point at or below T
(`tempFactor_append`), so the last of these alone, with the point after it, decides the factor. What the interpolation
adds stays within the step between the two factors (`interpolate_bounds`), which bounds the factor by the curve's extremes.
-/
namespace Sys2Proof.Machine.Laws

variable {curve inits rest : List CurvePoint} {a b : CurvePoint} {t : Int} {low high : Nat}

/-- The temperatures of a prepared curve rise (R44). -/
def Rising (curve : List CurvePoint) : Prop := curve.Pairwise (fun a b => a.temp < b.temp)

/-- The last case of R45, between the points `a` and `b`, before it is read as a natural number. -/
def interpolate (t : Int) (a b : CurvePoint) : Int :=
  a.factor + (((b.factor : Int) - a.factor) * (t - a.temp)).tdiv (b.temp - a.temp)

/-- The quotient of a step `n` by the part `k` of `d`, rounded toward zero, lies between 0 and the whole step. -/
theorem tdiv_part_of_step_bounds {n k d : Int} (hk : 0 ≤ k) (hkd : k < d) :
    min 0 n ≤ (n * k).tdiv d ∧ (n * k).tdiv d ≤ max 0 n := by
  have rising (m : Int) (hm : 0 ≤ m) : 0 ≤ (m * k).tdiv d ∧ (m * k).tdiv d ≤ m := by
    have hquot := Int.tdiv_le_tdiv (by omega : 0 < d) (Int.mul_le_mul_of_nonneg_left hkd.le hm)
    rw [Int.mul_tdiv_cancel m (by omega)] at hquot
    exact ⟨Int.tdiv_nonneg (Int.mul_nonneg hm hk) (by omega), hquot⟩
  obtain hn | hn := le_total 0 n
  · have := rising n hn
    omega
  · have := rising (-n) (by omega)
    rw [Int.neg_mul, Int.neg_tdiv] at this
    omega

theorem interpolate_bounds (ha : a.temp ≤ t) (hb : t < b.temp) (hfa : low ≤ a.factor ∧ a.factor ≤ high)
    (hfb : low ≤ b.factor ∧ b.factor ≤ high) : (low : Int) ≤ interpolate t a b ∧ interpolate t a b ≤ high := by
  have := tdiv_part_of_step_bounds (n := (b.factor : Int) - a.factor) (by omega : 0 ≤ t - a.temp)
    (by omega : t - a.temp < b.temp - a.temp)
  unfold interpolate
  omega

/-! ## The walk along the curve -/

@[simp] theorem factorFrom_singleton : factorFrom t a [] = a.factor := rfl

theorem factorFrom_cons_of_le (h : b.temp ≤ t) : factorFrom t a (b :: rest) = factorFrom t b rest := if_pos h

/-- The truncation to a natural number in the model's last case loses nothing. -/
theorem factorFrom_cons_of_lt (ha : a.temp ≤ t) (hb : t < b.temp) :
    (factorFrom t a (b :: rest) : Int) = interpolate t a b := by
  have hnonneg : 0 ≤ interpolate t a b :=
    (interpolate_bounds (low := 0) (high := max a.factor b.factor) ha hb (by omega) (by omega)).1
  rw [factorFrom, if_neg (by omega)]
  exact Int.toNat_of_nonneg hnonneg

theorem factorFrom_at_own_temp (h : Rising (a :: rest)) : factorFrom a.temp a rest = a.factor := by
  cases rest with
  | nil => rfl
  | cons b rest =>
    have hlt : a.temp < b.temp := List.rel_of_pairwise_cons h List.mem_cons_self
    have := factorFrom_cons_of_lt (rest := rest) le_rfl hlt
    simpa [interpolate] using this

/-- The walk from a point `x` passes every point up to `a`. -/
theorem factorFrom_append {x : CurvePoint} (h : Rising (x :: (inits ++ a :: rest))) (ha : a.temp ≤ t) :
    factorFrom t x (inits ++ a :: rest) = factorFrom t a rest := by
  induction inits generalizing x with
  | nil => exact factorFrom_cons_of_le ha
  | cons y inits ih =>
    have hrest : Rising (y :: (inits ++ a :: rest)) := h.of_cons
    have hy : y.temp < a.temp := List.rel_of_pairwise_cons hrest (by simp)
    exact (factorFrom_cons_of_le (by omega)).trans (ih hrest)

theorem factorFrom_bounds (ha : a.temp ≤ t) (h : ∀ x ∈ a :: rest, low ≤ x.factor ∧ x.factor ≤ high) :
    low ≤ factorFrom t a rest ∧ factorFrom t a rest ≤ high := by
  induction rest generalizing a with
  | nil => exact h a List.mem_cons_self
  | cons b rest ih =>
    obtain ⟨hfa, hfrest⟩ := List.forall_mem_cons.mp h
    obtain hb | hb := le_or_gt b.temp t
    · rw [factorFrom_cons_of_le hb]
      exact ih hb hfrest
    · have hvalue := factorFrom_cons_of_lt (rest := rest) ha hb
      have hbounds := interpolate_bounds ha hb hfa (hfrest b List.mem_cons_self)
      omega

/-! ## The factor of a curve -/

@[simp] theorem tempFactor_nil : tempFactor [] t = 16384 := rfl

theorem tempFactor_cons_of_le (h : t ≤ a.temp) : tempFactor (a :: rest) t = a.factor := if_pos h

theorem tempFactor_cons_of_gt (h : a.temp < t) : tempFactor (a :: rest) t = factorFrom t a rest :=
  if_neg (by omega)

@[simp] theorem tempFactor_singleton : tempFactor [a] t = a.factor := by
  obtain h | h := le_or_gt t a.temp
  · exact tempFactor_cons_of_le h
  · exact tempFactor_cons_of_gt h

/-- On a rising curve only a point at or below T and those after it decide the factor. -/
theorem tempFactor_append (h : Rising (inits ++ a :: rest)) (ha : a.temp ≤ t) :
    tempFactor (inits ++ a :: rest) t = factorFrom t a rest := by
  cases inits with
  | nil =>
    obtain rfl | hlt := ha.eq_or_lt
    · exact (tempFactor_cons_of_le le_rfl).trans (factorFrom_at_own_temp h).symm
    · exact tempFactor_cons_of_gt hlt
  | cons x inits =>
    have hx : x.temp < a.temp := List.rel_of_pairwise_cons h (by simp)
    exact (tempFactor_cons_of_gt (by omega)).trans (factorFrom_append h ha)

theorem tempFactor_bounds (hne : curve ≠ []) (h : ∀ x ∈ curve, low ≤ x.factor ∧ x.factor ≤ high) :
    low ≤ tempFactor curve t ∧ tempFactor curve t ≤ high := by
  obtain ⟨a, rest, rfl⟩ := List.exists_cons_of_ne_nil hne
  obtain ht | ht := le_or_gt t a.temp
  · rw [tempFactor_cons_of_le ht]
    exact h a List.mem_cons_self
  · rw [tempFactor_cons_of_gt ht]
    exact factorFrom_bounds ht.le h

/-- Settles O28: each case is a point of the walk, and the bound is `tempFactor_bounds`. -/
theorem temperatureFactorByCases : Obligations.TemperatureFactorByCases := by
  intro curve T hrising
  refine ⟨?empty, ?single, ?belowFirst, ?aboveLast, ?between, fun low high => tempFactor_bounds⟩
  case empty => rintro rfl; exact tempFactor_nil
  case single => rintro a rfl; exact tempFactor_singleton
  case belowFirst => rintro a rest rfl hT; exact tempFactor_cons_of_le hT
  case aboveLast => rintro inits z rfl hT; exact tempFactor_append hrising hT
  case between =>
    rintro inits a b rest rfl ha hb
    rw [tempFactor_append hrising ha]
    exact factorFrom_cons_of_lt ha hb

end Sys2Proof.Machine.Laws
end

section
/-!
# The screening verdict by its tests (R122 to R125)

`screen` decides eligibility and then hands two test results to `verdictOf`. `eligible_eq_false_iff` says when the vehicle is
barred, `any_isOver_eq_true_iff` and `isOver_eq_true_iff` say what each test result means, and `screen_of_tests` joins them.
-/
namespace Sys2Proof.Machine.Laws

variable {p : Params} {entry : Option ClassEntry} {e : ClassEntry} {f : Flags} {axles : List Axle} {sm : Summary}
  {tolerance limit value : Nat} {axleOver grossOver : Bool}

/-! ## Eligibility (R122) -/

theorem barsScreening_eq_true_iff : f.barsScreening = true ↔
    f.incomplete = true ∨ f.mismatch = true ∨ f.saturated = true ∨ f.truncated = true ∨ f.continuation = true ∨
      f.wrongWay = true ∨ f.tempDefault = true ∨ f.partnerLost = true ∨ f.edgeUnmatched = true := by
  simp only [Flags.barsScreening, Bool.or_eq_true, or_assoc]

/-- A mean speed equal to V_scr is eligible. -/
theorem eligible_eq_false_iff :
    eligible p f sm = false ↔ f.barsScreening = true ∨ sm.meanSpeed < p.screenSpeed := by
  simp only [eligible, Bool.and_eq_false_iff, Bool.not_eq_false', decide_eq_false_iff_not, Nat.not_le]

/-! ## The limits (R123) -/

@[simp] theorem axleLimitOf_none : axleLimitOf p none = p.siteAxleLimit := rfl

@[simp] theorem axleLimitOf_some : axleLimitOf p (some e) = e.axleLimit.getD p.siteAxleLimit := rfl

@[simp] theorem grossLimitOf_none : grossLimitOf p none = p.siteGrossLimit := rfl

@[simp] theorem grossLimitOf_some : grossLimitOf p (some e) = e.grossLimit.getD p.siteGrossLimit := rfl

/-! ## The tests (R124) -/

theorem isOver_eq_true_iff : isOver tolerance limit value = true ↔ value * 100 > limit * (100 + tolerance) :=
  decide_eq_true_iff

/-- The axle test is met by one axle or by several alike. -/
theorem any_isOver_eq_true_iff : axles.any (fun a => isOver tolerance limit a.load) = true ↔
    ∃ a ∈ axles, a.load * 100 > limit * (100 + tolerance) := by
  simp only [List.any_eq_true, isOver_eq_true_iff]

/-! ## The verdict (R125) -/

theorem screen_of_not_eligible (h : eligible p f sm = false) : screen p entry f axles sm = .notScreened :=
  if_neg (by simp [h])

theorem screen_of_eligible (h : eligible p f sm = true) : screen p entry f axles sm =
    verdictOf (axles.any (fun a => isOver p.tolerance (axleLimitOf p entry) a.load))
      (isOver p.tolerance (grossLimitOf p entry) sm.gross) :=
  if_pos h

/-- Two Booleans that say whether some axle and whether the gross is over give an eligible vehicle's verdict. -/
theorem screen_of_tests (h : eligible p f sm = true)
    (haxle : axleOver = true ↔ ∃ a ∈ axles, a.load * 100 > axleLimitOf p entry * (100 + p.tolerance))
    (hgross : grossOver = true ↔ sm.gross * 100 > grossLimitOf p entry * (100 + p.tolerance)) :
    screen p entry f axles sm = verdictOf axleOver grossOver := by
  rw [screen_of_eligible h, Bool.eq_iff_iff.mpr (any_isOver_eq_true_iff.trans haxle.symm),
    Bool.eq_iff_iff.mpr (isOver_eq_true_iff.trans hgross.symm)]

/-- Settles O38: a barred vehicle is not eligible, and each row of R125's table is `screen_of_tests` at its two answers. -/
theorem verdictFollowsTests : Obligations.VerdictFollowsTests := by
  intro p entry f axles sm barred axleLimit grossLimit axleOver grossOver
  have haxleLimit : axleLimitOf p entry = axleLimit := by
    cases entry
    exacts [axleLimitOf_none, axleLimitOf_some]
  have hgrossLimit : grossLimitOf p entry = grossLimit := by
    cases entry
    exacts [grossLimitOf_none, grossLimitOf_some]
  have hbarred : eligible p f sm = false ↔ barred := by
    rw [eligible_eq_false_iff, barsScreening_eq_true_iff]
    simp only [barred, or_assoc]
  have verdict (a g : Bool) (hb : ¬ barred) (ha : a = true ↔ axleOver) (hg : g = true ↔ grossOver) :
      screen p entry f axles sm = verdictOf a g := by
    have heligible : eligible p f sm = true := Bool.eq_true_of_not_eq_false (mt hbarred.mp hb)
    exact screen_of_tests heligible (haxleLimit ▸ ha) (hgrossLimit ▸ hg)
  refine ⟨?barred, ?clear, ?axleOver, ?grossOver, ?bothOver, ?record⟩
  case barred => exact fun hb => screen_of_not_eligible (hbarred.mpr hb)
  case clear => exact fun hb ha hg => verdict false false hb (by simp [ha]) (by simp [hg])
  case axleOver => exact fun hb ha hg => verdict true false hb (by simp [ha]) (by simp [hg])
  case grossOver => exact fun hb ha hg => verdict false true hb (by simp [ha]) (by simp [hg])
  case bothOver => exact fun hb ha hg => verdict true true hb (by simp [ha]) (by simp [hg])
  case record => exact fun v cls => rfl

end Sys2Proof.Machine.Laws
end

section
/-!
# What a command other than a reset can do

`Effect s t` says once what every such command keeps on its way from `s` to `t`: local time and the waiting commands, the
hold on the reset pin, the table of R163, the parameters outside STARTING, the counters, and each invariant of the
station. The operations of the blocks are shown to be effects here; `Forms` brings in those on axles and vehicles.
-/
namespace Sys2Proof.Machine.Laws
open Sys2Proof.Machine.Safety

variable {s t u : State}

/-! ## The effect -/

/-- The moves of the station state that are no reset's (R163). -/
inductive Moves (a b : Control) : Prop
  | stays (station : b.station = a.station)
  | starts (before : a.station = .starting) (station : b.station = .running) (image : b.image = .good)
  | halts (before : a.station = .starting) (station : b.station = .halted)
      (image : b.image = .noMemory ∨ b.image = .badFormat ∨ b.image = .badLength ∨ b.image = .badCheck)
  | mutesRunning (before : a.station = .running) (station : b.station = .mute .fromRunning)
  | mutesHalted (before : a.station = .halted) (station : b.station = .mute .fromHalted)

/-- What stays fixed outside STARTING (R159, R162). -/
structure SameSetup (a b : Control) : Prop where
  params : b.params = a.params
  number : b.number = a.number
  rate : b.rate = a.rate
  image : b.image = a.image
  revision : b.revision = a.revision
  adjusted : b.adjusted = a.adjusted

/-- The invariant of the site link. -/
def LinkSound (s : State) : Prop := QueueOrdered s.link ∧ TransmitterMatchesQueue s ∧ BufferInFrame s.link

/-- The invariant of the blocks that may stand idle, and of the own probe. -/
def BlocksSound (s : State) : Prop := IdleWhereNotMeasuring s ∧ ProbeConsistent s

/-- What a command other than a reset can leave of the station `s` as `t`. -/
structure Effect (s t : State) : Prop where
  localTime : t.localTime = s.localTime
  pending : t.pending = s.pending
  held : t.control.held = s.control.held
  moves : Moves s.control t.control
  setup : s.control.station ≠ .starting → SameSetup s.control t.control
  counters : ∀ n : Fin 16, s.counters[n] ≤ 65535 → s.counters[n] ≤ t.counters[n] ∧ t.counters[n] ≤ 65535
  capacities : FitsCapacities s → FitsCapacities t
  corrections : CorrectionsFit s → CorrectionsFit t
  temperatures : TemperaturesFit s → TemperaturesFit t
  link : LinkSound s → LinkSound t
  blocks : BlocksSound s → BlocksSound t

theorem SameSetup.refl (a : Control) : SameSetup a a := ⟨rfl, rfl, rfl, rfl, rfl, rfl⟩

theorem SameSetup.trans {a b c : Control} (h : SameSetup a b) (g : SameSetup b c) : SameSetup a c :=
  ⟨g.params.trans h.params, g.number.trans h.number, g.rate.trans h.rate, g.image.trans h.image,
    g.revision.trans h.revision, g.adjusted.trans h.adjusted⟩

namespace Effect

theorem refl (s : State) : Effect s s where
  localTime := rfl
  pending := rfl
  held := rfl
  moves := .stays rfl
  setup := fun _ => SameSetup.refl _
  counters := fun _ h => ⟨le_refl _, h⟩
  capacities := id
  corrections := id
  temperatures := id
  link := id
  blocks := id

/-- Two effects one after the other, of which one at most moves the station state: `moves` and `setup` are left to show. -/
theorem compose (h : Effect s t) (g : Effect t u) (moves : Moves s.control u.control)
    (setup : s.control.station ≠ .starting → SameSetup s.control u.control) : Effect s u where
  localTime := g.localTime.trans h.localTime
  pending := g.pending.trans h.pending
  held := g.held.trans h.held
  moves := moves
  setup := setup
  counters := fun n hn =>
    have hst := h.counters n hn
    have htu := g.counters n hst.2
    ⟨hst.1.trans htu.1, htu.2⟩
  capacities := g.capacities ∘ h.capacities
  corrections := g.corrections ∘ h.corrections
  temperatures := g.temperatures ∘ h.temperatures
  link := g.link ∘ h.link
  blocks := g.blocks ∘ h.blocks

/-- An effect behind one that keeps the station state. -/
theorem trans (h : Effect s t) (hst : t.control.station = s.control.station) (g : Effect t u) : Effect s u := by
  refine h.compose g ?_ fun hn => (h.setup hn).trans (g.setup (hst ▸ hn))
  cases g.moves with
  | stays e => exact .stays (e.trans hst)
  | starts b e i => exact .starts (hst ▸ b) e i
  | halts b e i => exact .halts (hst ▸ b) e i
  | mutesRunning b e => exact .mutesRunning (hst ▸ b) e
  | mutesHalted b e => exact .mutesHalted (hst ▸ b) e

/-- An effect that leaves station control alone, behind another. -/
theorem andThen (h : Effect s t) (g : Effect t u) (hc : u.control = t.control) : Effect s u :=
  h.compose g (hc ▸ h.moves) fun hn => hc ▸ h.setup hn

/-- The effect of a command whose event may not hold. -/
theorem ite (p : Prop) [Decidable p] (h : p → Effect s t) : Effect s (if p then t else s) := by
  split
  · exact h ‹p›
  · exact refl s

end Effect

/-! ## Operations on axles and vehicles -/

theorem measuring_iff (s : State) :
    s.measuring = true ↔ s.control.station = .running ∨ s.control.station = .mute .fromRunning := by
  unfold State.measuring
  cases s.control.station with
  | mute o => cases o <;> simp
  | _ => simp

theorem measuringSample_iff (s : State) :
    s.measuringSample = true ↔ s.measuring = true ∧ s.localTime.toNat % 2 = 0 := by
  simp [State.measuringSample, sampleInstant]

/-- A station that measures is not STARTING. -/
theorem not_starting_of_measuring (h : s.measuring = true) : s.control.station ≠ .starting := by
  rcases (measuring_iff s).1 h with h | h <;> rw [h] <;> decide

/-- The idle blocks of a station that measures are its disabled channels. -/
theorem blocksSound_iff_of_measuring (h : s.measuring = true) :
    BlocksSound s ↔ (∀ c : Chan, s.control.params.gain.get c = 0 → s.channels.get c = Channel.reset) ∧
      s.control.held = false ∧ ProbeConsistent s := by
  have hn : ¬ (s.control.station = .starting ∨ s.control.station = .halted ∨ s.control.station = .mute .fromHalted) := by
    rcases (measuring_iff s).1 h with h | h <;> rw [h] <;> decide
  constructor
  · rintro ⟨⟨-, hc, hh⟩, hp⟩
    refine ⟨hc, ?_, hp⟩
    by_contra hheld
    exact not_starting_of_measuring h (hh (by simpa using hheld)).1
  · rintro ⟨hc, hh, hp⟩
    exact ⟨⟨fun hs => absurd hs hn, hc, fun h => by simp [hh] at h⟩, hp⟩

/-- In a station that measures an update that leaves control, channels and the own probe keeps the idle blocks. -/
theorem blocksSound_of_measuring (hm : s.measuring = true) (hc : t.control = s.control) (hch : t.channels = s.channels)
    (ht : t.temp = s.temp) (h : BlocksSound s) : BlocksSound t := by
  have hmt : t.measuring = true := by rw [measuring_iff, hc, ← measuring_iff]; exact hm
  rw [blocksSound_iff_of_measuring hm] at h
  rw [blocksSound_iff_of_measuring hmt]
  unfold ProbeConsistent at *
  rw [hc, hch, ht]
  exact h

namespace Effect

/-- An operation on axles and vehicles that keeps the idle blocks. -/
theorem ofForms (h : Forms none s t) (hb : BlocksSound s → BlocksSound t) : Effect s t where
  localTime := h.localTime
  pending := h.pending
  held := by rw [h.control]
  moves := .stays (by rw [h.control])
  setup := fun _ => h.control ▸ SameSetup.refl _
  counters := h.counters
  capacities := h.capacities (fun _ e => by cases e)
  corrections := h.corrections (fun _ e => by cases e)
  temperatures := h.temperatures (fun _ e => by cases e)
  link := fun ⟨hq, ht, hb⟩ => ⟨h.queue hq, h.transmitter ht, by rw [h.link]; exact hb⟩
  blocks := hb

/-- An operation on axles and vehicles of a station that measures. -/
theorem ofMeasuring (hm : s.measuring = true) (h : Forms none s t) : Effect s t :=
  ofForms h (blocksSound_of_measuring hm h.control h.channels h.temp)

/-! ## Operations on one block -/

/-- A counter adds up and saturates. -/
theorem bumpBy (c : Counter) (n : Nat) (s : State) : Effect s (s.bumpBy c n) :=
  { refl s with
    counters := fun m hm => by
      have hc : (s.bumpBy c n).counters[m] = _ := counted_place s.counters c.place m (min Config.counterMax (s.counter c + n))
      rw [hc]
      split
      · rename_i e
        subst e
        show s.counters[c.place] ≤ min 65535 (s.counters[c.place] + n) ∧ min 65535 (s.counters[c.place] + n) ≤ 65535
        omega
      · exact ⟨le_refl _, hm⟩ }

theorem bump (c : Counter) (s : State) : Effect s (s.bump c) := bumpBy c 1 s

/-- The link changes alone, and its monitor not while the pin holds the station in reset. -/
theorem ofLink (s : State) (l : Link) (hf : LinkFits s.link → LinkFits l)
    (hm : s.control.held = true → l.monitor = s.link.monitor)
    (hl : LinkSound s → LinkSound { s with link := l }) : Effect s { s with link := l } :=
  { refl s with
    capacities := fun ⟨hp, ho, hc, hb, hs, ht, hlk, hpar⟩ => ⟨hp, ho, hc, hb, hs, ht, hf hlk, hpar⟩
    link := hl
    blocks := fun ⟨⟨hn, hch, hh⟩, hp⟩ => by
      refine ⟨⟨hn, hch, fun h => ?_⟩, hp⟩
      obtain ⟨hst, hlt, hmon, hfault⟩ := hh h
      refine ⟨hst, hlt, (hm h).trans hmon, ?_⟩
      simp only [State.faultLine, hm h] at hfault ⊢
      exact hfault }

/-- The drift tracker and the store change alone, the corrections within their range, in a station that does measure. -/
theorem ofDrift (s : State) (d : Drift)
    (hc : (∀ b : Fin 8, correctionInRange s.drift.bands[b].correction) →
      ∀ b : Fin 8, correctionInRange d.bands[b].correction)
    (hb : BlocksSound s → BlocksSound { s with drift := d }) : Effect s { s with drift := d } :=
  { refl s with
    corrections := fun ⟨h1, h2, h3⟩ => ⟨hc h1, h2, h3⟩
    blocks := hb }

/-- The output unit changes alone, its triggers within their capacity. -/
theorem ofOutput (s : State) (o : Output) (ht : s.output.triggers.length ≤ 4 → o.triggers.length ≤ 4)
    (hb : BlocksSound s → BlocksSound { s with output := o }) : Effect s { s with output := o } :=
  { refl s with
    capacities := fun ⟨hp, ho, hc, hb, hs, htr, hlk, hpar⟩ => ⟨hp, ho, hc, hb, hs, ht htr, hlk, hpar⟩
    blocks := hb }

/-- The causes and the status due time change. -/
theorem ofControl (s : State) (causes : Causes) (due : Option LocalTime) :
    Effect s { s with control := { s.control with causes := causes, statusDue := due } } :=
  { refl s with moves := .stays rfl, setup := fun _ => ⟨rfl, rfl, rfl, rfl, rfl, rfl⟩ }

/-- The head of the receive queue is taken. -/
theorem dispatched (s : State) : Effect s s.dispatched := by
  refine ofLink s _ (fun ⟨h1, h2⟩ => ⟨?_, h2⟩) (fun _ => rfl) fun ⟨hq, ⟨h1, h2, h3, h4⟩, hb⟩ => ⟨hq, ⟨h1, h2, ?_, h4⟩, hb⟩
  · rw [List.length_tail]; omega
  · intro hst
    obtain ⟨hi, he⟩ := h3 hst
    exact ⟨hi, by show s.link.receiveQueue.tail = []; rw [he]; rfl⟩

end Effect

/-! ## Producing a frame -/

theorem produce_drift (b : Body) (s : State) : (s.produce b).drift = s.drift := by
  unfold State.produce State.enqueue
  cases s.control.station <;> simp only <;> split <;> rfl

theorem produce_output (b : Body) (s : State) : (s.produce b).output = s.output := by
  unfold State.produce State.enqueue
  cases s.control.station <;> simp only <;> split <;> rfl

/-- The idle blocks depend on no counter and, but for the monitor, on nothing of the link. -/
theorem blocksSound_congr (h1 : t.control = s.control) (h2 : t.channels = s.channels) (h3 : t.pairs = s.pairs)
    (h4 : t.assembler = s.assembler) (h5 : t.boundary = s.boundary) (h6 : t.temp = s.temp) (h7 : t.drift = s.drift)
    (h8 : t.output = s.output) (h9 : t.localTime = s.localTime) (h10 : t.link.monitor = s.link.monitor)
    (h : BlocksSound s) : BlocksSound t := by
  unfold BlocksSound IdleWhereNotMeasuring MeasuringBlocksReset ProbeConsistent State.faultLine at *
  rw [h1, h2, h3, h4, h5, h6, h7, h8, h9, h10]
  exact h

/-- A block produces a frame. -/
theorem Effect.produce (b : Body) (s : State) : Effect s (s.produce b) :=
  have h := Forms.produce none b s
  ofForms h (blocksSound_congr h.control h.channels (produce_pairs b s) (produce_assembler b s) (produce_boundary b s)
    h.temp (produce_drift b s) (produce_output b s) h.localTime (by rw [h.link]))

end Sys2Proof.Machine.Laws
end

section
/-!
# The operations of the site link are effects

The receiver's operations change the buffer alone (`Effect.receive`), the transmitter's the queue with the frame under
attempt (`QueueSorted` says what of the queue never changes), and MUTE empties both.
-/
namespace Sys2Proof.Machine.Laws
open Sys2Proof.Machine.Safety

variable {s t u : State}

/-! ## The receiver -/

/-- Receiver and buffer change, the buffer empty outside IN-FRAME. -/
theorem Effect.receive (s : State) (r : Receiver) (buffer : List Byte) (stamp : LocalTime) (noise own sent : Bool)
    (hlen : s.link.buffer.length ≤ 100 → buffer.length ≤ 100) (hb : r = .inFrame ↔ buffer ≠ [])
    (ho : own = true ∨ sent = true → r = .inFrame) :
    Effect s { s with link := { s.link with
      receiver := r, buffer := buffer, bufferStamp := stamp, bufferNoise := noise, bufferOwn := own, ownSent := sent } } :=
  ofLink s _ (fun ⟨h1, h2, h3, h4⟩ => ⟨h1, h2, hlen h3, h4⟩) (fun _ => rfl) fun ⟨hq, ht, _⟩ => ⟨hq, ht, hb, ho⟩

theorem Effect.hunt (s : State) : Effect s s.hunt :=
  receive s .hunt [] _ _ false false (fun _ => Nat.zero_le _) (by simp) (by simp)

theorem Effect.readyReceiver (s : State) : Effect s s.readyReceiver :=
  receive s .ready [] _ _ false false (fun _ => Nat.zero_le _) (by simp) (by simp)

theorem Effect.startFrame (data : Byte) (noise : Bool) (stamp : LocalTime) (s : State) :
    Effect s (s.startFrame data noise stamp) :=
  receive s .inFrame [data] _ _ _ false (fun _ => by simp) (by simp) (fun _ => rfl)

/-- A character joins a frame that is not a hundred characters long (R178). -/
theorem Effect.joinBuffer {data : Byte} {noise : Bool} (hr : s.link.receiver = .inFrame) (hl : s.link.buffer.length < 100) :
    Effect s (s.joinBuffer data noise) :=
  receive s s.link.receiver (s.link.buffer ++ [data]) _ _ _ s.link.ownSent
    (fun _ => by rw [List.length_append, List.length_singleton]; omega) (by simp [hr]) (fun _ => hr)

theorem countDiscarded_eq (s : State) :
    s.countDiscarded = if s.control.station = .starting then s else s.bump .framesDiscarded := rfl

theorem Effect.countDiscarded (s : State) : Effect s s.countDiscarded := by
  rw [countDiscarded_eq]
  split
  · exact refl s
  · exact bump _ s

theorem countDiscarded_control (s : State) : s.countDiscarded.control = s.control := by
  rw [countDiscarded_eq]; split <;> rfl

/-- The station enters MUTE (R163, R186). -/
theorem Effect.enterMute (s : State) : Effect s s.enterMute := by
  have fits (hf : FitsCapacities s) (o : Origin) : FitsCapacities { s with
      control := { s.control with station := .mute o }
      link := { s.link with transmitter := .mute, transmitQueue := [], driven := [] } } := by
    obtain ⟨hp, ho, hc, hb, hs, ht, ⟨h1, -, h3, h4, -⟩, hpar⟩ := hf
    exact ⟨hp, ho, hc, hb, hs, ht, ⟨h1, Nat.zero_le _, h3, h4, fun f hf => by cases hf⟩, hpar⟩
  have sound (hl : LinkSound s) (o : Origin) : LinkSound { s with
      control := { s.control with station := .mute o }
      link := { s.link with transmitter := .mute, transmitQueue := [], driven := [] } } := by
    obtain ⟨-, -, hb⟩ := hl
    exact ⟨⟨List.Pairwise.nil, fun _ _ => Nat.zero_le _, rfl⟩, by simp [TransmitterMatchesQueue], hb⟩
  unfold State.enterMute
  cases hst : s.control.station with
  | running =>
    refine { refl s with
      moves := .mutesRunning hst rfl, setup := fun _ => ⟨rfl, rfl, rfl, rfl, rfl, rfl⟩
      capacities := fun h => fits h _, link := fun h => sound h _, blocks := fun h => ?_ }
    have hm : s.measuring = true := (measuring_iff s).2 (.inl hst)
    exact (blocksSound_iff_of_measuring rfl).2 ((blocksSound_iff_of_measuring hm).1 h)
  | halted =>
    refine { refl s with
      moves := .mutesHalted hst rfl, setup := fun _ => ⟨rfl, rfl, rfl, rfl, rfl, rfl⟩
      capacities := fun h => fits h _, link := fun h => sound h _, blocks := fun ⟨⟨hn, hc, hh⟩, hp⟩ => ?_ }
    refine ⟨⟨fun _ => hn (.inr (.inl hst)), hc, fun h => ?_⟩, hp⟩
    have := (hh h).1
    rw [hst] at this
    cases this
  | starting => exact refl s
  | mute o => exact refl s

/-- The station takes a good frame that it has not sent (R180). -/
theorem Effect.takeFrame (f : RxFrame) (s : State) : Effect s (s.takeFrame f) := by
  unfold State.takeFrame
  split
  · exact refl s
  · rename_i hst
    split
    · exact enterMute s
    · split
      · exact bump _ s
      · rename_i hcap
        refine ofLink s _ (fun ⟨_, h2⟩ => ⟨?_, h2⟩) (fun _ => rfl)
          fun ⟨hq, ⟨h1, h2, _, h4⟩, hb⟩ => ⟨hq, ⟨h1, h2, fun h => absurd h hst, h4⟩, hb⟩
        rw [List.length_append, List.length_singleton]
        exact Nat.lt_of_not_le hcap

/-- The frame in the buffer ends (R178 to R180). -/
theorem Effect.endFrame (s : State) : Effect s s.endFrame := by
  unfold State.endFrame
  refine (readyReceiver s).trans rfl ?_
  split
  · exact countDiscarded _
  · split
    · exact refl _
    · exact takeFrame _ _

/-- The line monitor moves, while it runs (R174, R189). -/
theorem Effect.monitor (s : State) (m : Monitor) (hh : s.control.held = false) :
    Effect s { s with link := { s.link with monitor := m } } :=
  ofLink s _ id (fun h => by simp [hh] at h) id

theorem monitorIn_iff (m : Monitor) (s : State) :
    s.monitorIn m = true ↔ s.link.monitor = m ∧ s.control.held = false := by
  simp [State.monitorIn]

/-- The line monitor enters IDLE (R174, R178). -/
theorem Effect.enterIdle (hh : s.control.held = false) : Effect s s.enterIdle := by
  unfold State.enterIdle
  refine (monitor s .idle hh).trans rfl ?_
  simp only
  split
  · exact readyReceiver _
  · exact refl _
  · exact endFrame _

/-- The line cuts a reception (R174, R178). -/
theorem Effect.cutReception (s : State) : Effect s s.cutReception := by
  unfold State.cutReception
  split
  · exact (hunt s).trans rfl (countDiscarded _)
  · exact hunt s

/-- The line monitor enters BREAK (R174). -/
theorem Effect.enterBreak (hh : s.control.held = false) : Effect s s.enterBreak := by
  unfold State.enterBreak
  exact (monitor s .breakSeen hh).trans rfl (cutReception _)

/-- The line monitor enters LINE-FAULT (R174). -/
theorem Effect.enterLineFault (hh : s.control.held = false) : Effect s s.enterLineFault := by
  unfold State.enterLineFault
  exact ((monitor s .lineFault hh).trans rfl (cutReception _)).andThen (bump _ _) rfl

theorem Effect.refuseCharacter (s : State) : Effect s s.refuseCharacter := by
  unfold State.refuseCharacter
  split
  · exact hunt s
  · exact (hunt s).trans rfl (countDiscarded _)

/-- A character is received (R178). -/
theorem Effect.takeCharacter (mark : Bool) (data : Byte) (stopHigh noise : Bool) (stamp : LocalTime) (s : State) :
    Effect s (s.takeCharacter mark data stopHigh noise stamp) := by
  unfold State.takeCharacter
  split
  · exact refl s
  · split
    · exact startFrame _ _ _ s
    · exact refuseCharacter s
  · rename_i hr
    split
    · exact refuseCharacter s
    · rename_i hj
      refine joinBuffer hr ?_
      simp only [State.breaksFrame, Bool.or_eq_true, decide_eq_true_eq, not_or, Config.bufferCapacity] at hj
      omega

/-! ## The transmit queue -/

/-- The queue is ordered by class and holds at most one frame of each single kind (R187). -/
structure QueueSorted (q : List TxFrame) : Prop where
  ordered : q.Pairwise (fun f g => f.body.kind.priority ≤ g.body.kind.priority)
  single : SingleKinds q

theorem QueueSorted.sublist {q r : List TxFrame} (h : QueueSorted q) (hr : r.Sublist q) : QueueSorted r :=
  ⟨h.ordered.sublist hr, fun k hk => (hr.filter _).length_le.trans (h.single k hk)⟩

/-- The marks of queued frames change, their bodies do not. -/
theorem QueueSorted.map {q : List TxFrame} (h : QueueSorted q) (f : TxFrame → TxFrame) (hf : ∀ x, (f x).body = x.body) :
    QueueSorted (q.map f) := by
  refine ⟨?_, fun k hk => ?_⟩
  · simpa only [List.pairwise_map, hf] using h.ordered
  · have : (fun x : TxFrame => x.body.kind == k) ∘ f = fun x => x.body.kind == k := by funext x; simp [hf]
    rw [List.filter_map, List.length_map, this]
    exact h.single k hk

/-- A queue of which no frame is under attempt. -/
def NoneAttempted (q : List TxFrame) : Prop := ∀ f ∈ q, f.attempted = false

theorem noneAttempted_iff (q : List TxFrame) : NoneAttempted q ↔ (q.filter TxFrame.attempted).length = 0 := by
  simp [NoneAttempted, List.filter_eq_nil_iff]

/-- The frame under attempt stands in the queue in ARBITRATING, SENDING and BREAKING. -/
theorem noneAttempted_of_waits {l : Link} (h : QueueOrdered l) (hw : l.transmitter = .waitIdle) :
    NoneAttempted l.transmitQueue := by
  rw [noneAttempted_iff, h.2.2, hw]
  rfl

theorem restTransmitter_eq_idle (q : List TxFrame) : State.restTransmitter q = .idle ↔ q = [] := by
  cases q <;> simp [State.restTransmitter]

theorem restTransmitter_eq_waitIdle (q : List TxFrame) : State.restTransmitter q = .waitIdle ↔ q ≠ [] := by
  cases q <;> simp [State.restTransmitter]

theorem restTransmitter_cases (q : List TxFrame) :
    State.restTransmitter q = .idle ∨ State.restTransmitter q = .waitIdle := by
  cases q <;> simp [State.restTransmitter]

/-- A station with a frame under attempt neither starts nor is in MUTE. -/
theorem transmits_of_attempt (h : TransmitterMatchesQueue s)
    (ha : s.link.transmitter ≠ .idle ∧ s.link.transmitter ≠ .mute) :
    s.control.station ≠ .starting ∧ ¬ ∃ o, s.control.station = .mute o := by
  obtain ⟨-, -, h3, h4, -⟩ := h
  exact ⟨fun hs => ha.1 (h3 hs).1, fun hm => ha.2 (h4.2 hm)⟩

/-- An attempt has ended: the transmitter rests by its queue, in which no frame is under attempt any more, and drives
nothing (R182). -/
theorem LinkSound.rests {l : Link} (h : LinkSound s) (hb : BufferInFrame s.link → BufferInFrame l)
    (ha : s.link.transmitter ≠ .idle ∧ s.link.transmitter ≠ .mute)
    (hq : QueueSorted s.link.transmitQueue → QueueSorted l.transmitQueue) (hn : NoneAttempted l.transmitQueue)
    (ht : l.transmitter = State.restTransmitter l.transmitQueue) (hd : l.driven = []) :
    LinkSound { s with link := l } := by
  obtain ⟨⟨ho, hk, -⟩, htm, hbuf⟩ := h
  obtain ⟨hstart, hmute⟩ := transmits_of_attempt htm ha
  have hs := hq ⟨ho, hk⟩
  have hrest := restTransmitter_cases l.transmitQueue
  refine ⟨⟨hs.ordered, hs.single, ?_⟩, ⟨?_, ?_, fun h => absurd h hstart, ⟨?_, fun h => absurd h hmute⟩, ?_, .inr (.inr hd)⟩,
    hb hbuf⟩
  · rw [(noneAttempted_iff _).1 hn, if_neg]
    rw [ht]
    rcases hrest with e | e <;> simp [e]
  · exact fun h => (restTransmitter_eq_idle _).1 (ht ▸ h)
  · exact fun h => (restTransmitter_eq_waitIdle _).1 (ht ▸ h)
  · intro h
    rw [show l.transmitter = .mute from h] at ht
    rcases hrest with e | e <;> simp [e] at ht
  · intro h
    rw [show l.transmitter = .mute from h] at ht
    rcases hrest with e | e <;> simp [e] at ht

/-- A frame in the buffer may cease to be the station's own. -/
theorem bufferInFrame_own {l : Link} (h : BufferInFrame l) (own sent : Bool) (ho : own = true → l.bufferOwn = true)
    (hs : sent = true → l.bufferOwn = true ∨ l.ownSent = true) :
    BufferInFrame { l with bufferOwn := own, ownSent := sent } :=
  ⟨h.1, fun h' => h.2 (h'.elim (fun e => .inl (ho e)) hs)⟩

/-- Arbitration is lost (R183). -/
theorem Effect.loseArbitration (ha : s.link.transmitter = .arbitrating) : Effect s s.loseArbitration := by
  refine ofLink s _ (fun ⟨h1, h2, h3, h4, h5⟩ => ⟨h1, ?_, h3, h4, ?_⟩) (fun _ => rfl) fun h =>
    h.rests ?_ (by simp [ha]) (fun hq => hq.map _ fun _ => rfl) ?_ rfl rfl
  · simpa using h2
  · intro f hf
    obtain ⟨g, hg, rfl⟩ := List.mem_map.1 hf
    exact h5 g hg
  · exact fun hb => bufferInFrame_own hb false _ (by simp) .inr
  · intro f hf
    obtain ⟨g, -, rfl⟩ := List.mem_map.1 hf
    rfl

/-- Arbitration is won (R183). -/
theorem Effect.winArbitration (ha : s.link.transmitter = .arbitrating) :
    Effect s { s with link := { s.link with transmitter := .sending } } := by
  refine ofLink s _ id (fun _ => rfl) fun ⟨⟨ho, hk, hn⟩, ht, hb⟩ => ?_
  obtain ⟨hstart, hmute⟩ := transmits_of_attempt ht (by simp [ha])
  rw [ha] at hn
  exact ⟨⟨ho, hk, hn⟩, ⟨by simp, by simp, fun h => absurd h hstart, by simpa using hmute, by simp, by simp⟩, hb⟩

theorem Effect.countDrops (n : Nat) (s : State) : Effect s (s.countDrops n) := by
  unfold State.countDrops
  split
  · exact refl s
  · exact bumpBy _ _ s

theorem countDrops_control (n : Nat) (s : State) : (s.countDrops n).control = s.control := by
  unfold State.countDrops; split <;> rfl

theorem countDrops_link (n : Nat) (s : State) : (s.countDrops n).link = s.link := by
  unfold State.countDrops; split <;> rfl

/-- An attempt begins (R93, R182). -/
theorem Effect.beginAttempt (ha : s.link.transmitter = .waitIdle) : Effect s s.beginAttempt := by
  unfold State.beginAttempt
  simp only
  have hsub := List.dropWhile_sublist (l := s.link.transmitQueue) (State.tooAged s.localTime)
  generalize s.link.transmitQueue.length - (s.link.transmitQueue.dropWhile (State.tooAged s.localTime)).length = n
  have hlink := countDrops_link n s
  refine (countDrops n s).trans (by rw [countDrops_control]) ?_
  generalize s.countDrops n = t at hlink ⊢
  rw [← hlink] at ha hsub ⊢
  split
  · exact ofLink t _ (fun ⟨h1, _, h3, h4, _⟩ => ⟨h1, Nat.zero_le _, h3, h4, fun f hf => by cases hf⟩) (fun _ => rfl) fun h =>
      h.rests id (by simp [ha]) (fun _ => ⟨.nil, fun _ _ => Nat.zero_le _⟩) (fun f hf => by cases hf) rfl
        (by obtain ⟨-, ⟨-, -, -, -, -, hd⟩, -⟩ := h; simpa [ha] using hd)
  · rename_i f rest hq
    rw [hq] at hsub
    have sorted (h : QueueSorted t.link.transmitQueue) : QueueSorted ({ f with attempted := true } :: rest) := by
      have := h.sublist hsub
      refine ⟨?_, fun k hk => ?_⟩
      · have ho := this.ordered
        rw [List.pairwise_cons] at ho ⊢
        exact ho
      · have hs := this.single k hk
        rw [List.filter_cons] at hs ⊢
        split at hs <;> simp_all
    refine ofLink t _ (fun ⟨h1, h2, h3, h4, h5⟩ => ⟨h1, ?_, h3, h4, ?_⟩) (fun _ => rfl)
      fun ⟨hord, ht, hb⟩ => ⟨⟨(sorted ⟨hord.1, hord.2.1⟩).ordered, (sorted ⟨hord.1, hord.2.1⟩).single, ?_⟩, ?_, ?_⟩
    · have := hsub.length_le
      simp only [List.length_cons] at this ⊢
      omega
    · intro g hg
      rcases List.mem_cons.1 hg with rfl | hg
      · exact h5 f (hsub.subset List.mem_cons_self)
      · exact h5 g (hsub.subset (List.mem_cons_of_mem _ hg))
    · have hrest : NoneAttempted rest := fun g hg =>
        noneAttempted_of_waits hord ha g (hsub.subset (List.mem_cons_of_mem _ hg))
      rw [List.filter_cons_of_pos rfl, List.length_cons, (noneAttempted_iff _).1 hrest]
      simp
    · obtain ⟨hstart, hmute⟩ := transmits_of_attempt ht (by simp [ha])
      exact ⟨by simp, by simp, fun h => absurd h hstart, by simpa using hmute, by simp, by simp⟩
    · exact bufferInFrame_own hb false _ (by simp) .inr

/-- A bit error is met (R184, R186). -/
theorem Effect.takeBitError (ha : s.link.transmitter = .arbitrating ∨ s.link.transmitter = .sending) :
    Effect s s.takeBitError := by
  have counted : Effect s { s.bump .bitErrors with
      link := { s.link with consecutiveErrors := min 4 (s.link.consecutiveErrors + 1) } } :=
    (bump .bitErrors s).trans rfl (ofLink (s.bump .bitErrors) _
      (fun ⟨h1, h2, h3, _, h5⟩ => ⟨h1, h2, h3, min_le_left _ _, h5⟩) (fun _ => rfl) id)
  unfold State.takeBitError
  simp only
  split
  · exact counted.trans rfl (enterMute _)
  · refine counted.trans rfl (ofLink _ _ id (fun _ => rfl) fun ⟨⟨ho, hk, hn⟩, ht, hb⟩ => ?_)
    have htr : s.link.transmitter ≠ .idle ∧ s.link.transmitter ≠ .mute := by rcases ha with e | e <;> simp [e]
    obtain ⟨hstart, hmute⟩ := transmits_of_attempt ht htr
    refine ⟨⟨ho, hk, hn.trans ?_⟩, ⟨by simp, by simp, fun h => absurd h hstart, by simpa using hmute, by simp, by simp⟩, hb⟩
    rcases ha with e | e <;> simp [e]

theorem countFrameError_body (f : TxFrame) : (State.countFrameError f).body = f.body := by
  unfold State.countFrameError; split <;> rfl

theorem countFrameError_attempted (f : TxFrame) : (State.countFrameError f).attempted = false := by
  unfold State.countFrameError
  split
  · rfl
  · simpa using ‹¬ f.attempted = true›

/-- The break ends (R184). -/
theorem Effect.endBreaking (ha : s.link.transmitter = .breaking) : Effect s s.endBreaking := by
  unfold State.endBreaking
  simp only
  generalize (s.link.transmitQueue.map State.countFrameError).length -
    ((s.link.transmitQueue.map State.countFrameError).filter fun f => decide (f.errors < 3)).length = n
  have hlink := countDrops_link n s
  refine (countDrops n s).trans (by rw [countDrops_control]) ?_
  generalize s.countDrops n = t at hlink ⊢
  rw [← hlink] at ha ⊢
  have hsub := List.filter_sublist (l := t.link.transmitQueue.map State.countFrameError) (p := fun f => decide (f.errors < 3))
  refine ofLink t _ (fun ⟨h1, h2, h3, h4, _⟩ => ⟨h1, ?_, h3, h4, ?_⟩) (fun _ => rfl) fun h =>
    h.rests id (by simp [ha]) (fun hq => (hq.map _ countFrameError_body).sublist hsub) ?_ rfl rfl
  · exact hsub.length_le.trans (by simpa using h2)
  · intro f hf
    have : f.errors < 3 := by simpa using (List.mem_filter.1 hf).2
    omega
  · intro f hf
    obtain ⟨g, -, rfl⟩ := List.mem_map.1 (hsub.subset hf)
    exact countFrameError_attempted g

/-- A frame has been sent whole (R180, R185). -/
theorem Effect.takeSent (noise : Bool) (ha : s.link.transmitter = .sending) : Effect s (s.takeSent noise) := by
  unfold State.takeSent
  simp only
  generalize (if s.sendsAnnounce = true then (⟨false, false, false⟩ : Causes) else s.control.causes) = causes
  refine (ofControl s causes s.control.statusDue).trans rfl
    (ofLink { s with control := { s.control with causes := causes } } _
      (fun ⟨h1, h2, h3, h4, h5⟩ => ⟨h1, ?_, h3, ?_, ?_⟩) (fun _ => rfl) fun h =>
      h.rests ?_ (by simp [ha]) (fun hq => hq.sublist List.filter_sublist) ?_ rfl rfl)
  · exact List.filter_sublist.length_le.trans h2
  · show (if _ then s.link.consecutiveErrors else 0) ≤ 4
    split
    · exact h4
    · exact Nat.zero_le _
  · exact fun f hf => h5 f (List.filter_sublist.subset hf)
  · exact fun hb => bufferInFrame_own hb _ _ id .inl
  · intro f hf
    simpa using (List.mem_filter.1 hf).2

end Sys2Proof.Machine.Laws
end

section
/-!
# The temperature unit, the outputs, the store and a sample are effects

`UnitFits` and `UnitConsistent` say of the temperature unit alone what the invariants say of the station; each phase of the
temperature second keeps them.
-/
namespace Sys2Proof.Machine.Laws
open Sys2Proof.Machine.Safety

variable {s t : State} {p : Params} {u : TempUnit} {x : Int}

/-! ## The temperature unit -/

/-- The temperatures of the unit are plausible (R54, R61, R65). -/
structure UnitFits (u : TempUnit) : Prop where
  filtered : ∀ f, u.filtered = some f → -6400 ≤ f ∧ f ≤ 12800
  peers : ∀ j : Fin 15, u.peers[j].present = true → plausible u.peers[j].value
  held : ∀ t, u.held = some t → plausible t

/-- What stands beside an own status (R51, R53, R59, R60). -/
structure UnitConsistent (u : TempUnit) : Prop where
  suspect : u.suspect = true → u.status = .valid
  idle : u.status = .absent ∨ u.status = .starting → u.filtered = none ∧ u.spikes = [] ∧ u.holdAge = 0
  valid : u.status = .valid → u.holdAge = 0
  loaded : u.status = .valid ∨ u.status = .hold ∨ u.status = .stale → u.filtered ≠ none

theorem probeConsistent_iff (s : State) : ProbeConsistent s ↔ UnitConsistent s.temp :=
  ⟨fun ⟨h1, h2, h3, h4⟩ => ⟨h1, h2, h3, h4⟩, fun ⟨h1, h2, h3, h4⟩ => ⟨h1, h2, h3, h4⟩⟩

theorem plausible_reported {f : Int} (h : -6400 ≤ f ∧ f ≤ 12800) : plausible (reported f) := by
  unfold plausible reported
  rw [Int.fdiv_eq_ediv_of_nonneg _ (by omega)]
  omega

theorem UnitFits.value (h : UnitFits u) : plausible u.value := by
  unfold TempUnit.value
  cases hf : u.filtered with
  | none => simp [reported, plausible]
  | some f => exact plausible_reported (h.filtered f hf)

theorem probeReading_plausible {code : Nat} (h : probeReading p code = some x) : plausible x := by
  unfold probeReading at h
  split at h
  · cases h
  · simp only at h
    split at h
    · cases h
    · rename_i hx
      cases h
      exact ⟨by omega, by omega⟩

/-- A value that moves toward another by a part of the distance, rounded toward zero, does not pass it. -/
theorem tdiv_toward_bounds {f g low high : Int} (d : Nat) (hf : low ≤ f ∧ f ≤ high) (hg : low ≤ g ∧ g ≤ high) :
    low ≤ f + (g - f).tdiv d ∧ f + (g - f).tdiv d ≤ high := by
  have part (m : Int) (hm : 0 ≤ m) : 0 ≤ m.tdiv d ∧ m.tdiv d ≤ m :=
    ⟨Int.tdiv_nonneg hm (Int.natCast_nonneg d), Int.tdiv_le_self _ hm⟩
  rcases le_total f g with h | h
  · have := part (g - f) (by omega)
    omega
  · have := part (f - g) (by omega)
    rw [show g - f = -(f - g) by omega, Int.neg_tdiv]
    omega

theorem UnitFits.loadFilter (h : UnitFits u) (hx : plausible x) : UnitFits (u.loadFilter x) :=
  { h with
    filtered := fun f hf => by
      simp only [TempUnit.loadFilter, Option.some.injEq] at hf
      unfold plausible at hx
      omega }

theorem UnitFits.acceptReading (h : UnitFits u) (hx : plausible x) : UnitFits (u.acceptReading p x) :=
  { h with
    filtered := fun f hf => by
      simp only [TempUnit.acceptReading, Option.some.injEq] at hf
      have hg : -6400 ≤ u.filtered.getD 0 ∧ u.filtered.getD 0 ≤ 12800 := by
        cases hu : u.filtered with
        | none => simp
        | some g => exact h.filtered g hu
      unfold plausible at hx
      rw [← hf]
      exact tdiv_toward_bounds _ hg ⟨by omega, by omega⟩ }

/-- A second without an accepted reading changes the status, the hold age and the SUSPECT mark alone (R56, R58, R59). -/
theorem unaccepted_keeps (p : Params) (u : TempUnit) :
    ∃ status age suspect, u.unaccepted p = { u with status := status, holdAge := age, suspect := suspect } := by
  unfold TempUnit.unaccepted
  split <;> exact ⟨_, _, _, rfl⟩

theorem UnitFits.unaccepted (h : UnitFits u) : UnitFits (u.unaccepted p) := by
  obtain ⟨status, age, suspect, e⟩ := unaccepted_keeps p u
  rw [e]
  exact { h with }

theorem UnitFits.rejectReading (h : UnitFits u) (hx : plausible x) : UnitFits (u.rejectReading p x) := by
  unfold TempUnit.rejectReading
  simp only
  split
  · exact { h.loadFilter hx with }
  · exact { h.unaccepted with }

theorem UnitFits.probePhase (h : UnitFits u) (code : Nat) : UnitFits (u.probePhase p code).1 := by
  unfold TempUnit.probePhase
  split
  · exact h
  · split
    · exact h.loadFilter (probeReading_plausible ‹_›)
    · exact h
  all_goals
    split
    · split
      · exact h.acceptReading (probeReading_plausible ‹_›)
      · exact h.rejectReading (probeReading_plausible ‹_›)
    · exact { h.unaccepted with }

theorem agePeer_value (e : PeerEntry) : (TempUnit.agePeer e).value = e.value := by
  unfold TempUnit.agePeer; split <;> rfl

theorem agePeer_present (e : PeerEntry) (h : (TempUnit.agePeer e).present = true) : e.present = true := by
  unfold TempUnit.agePeer at h; split at h <;> assumption

theorem UnitFits.agePeers (h : UnitFits u) : UnitFits u.agePeers :=
  { h with
    peers := fun j hj => by
      simp only [TempUnit.agePeers, Fin.getElem_fin, Vector.getElem_map] at hj ⊢
      rw [agePeer_value]
      exact h.peers j (agePeer_present _ hj) }

theorem insertValue_perm (a : Int) (l : List Int) : (TempUnit.insertValue a l).Perm (a :: l) := by
  induction l with
  | nil => exact .refl _
  | cons b l ih =>
    unfold TempUnit.insertValue
    split
    · exact .refl _
    · exact (ih.cons b).trans (.swap a b l)

theorem sortValues_perm (l : List Int) : (TempUnit.sortValues l).Perm l := by
  induction l with
  | nil => exact .refl _
  | cons a l ih => exact (insertValue_perm a _).trans (ih.cons a)

theorem median_mem {l : List Int} (h : TempUnit.median l = some x) : x ∈ l :=
  (sortValues_perm l).mem_iff.1 (List.mem_of_getElem? h)

theorem UnitFits.median (h : UnitFits u) (hx : TempUnit.median (u.freshValues p) = some x) : plausible x := by
  obtain ⟨e, he, rfl⟩ := List.mem_map.1 (median_mem hx)
  obtain ⟨hmem, hfresh⟩ := List.mem_filter.1 he
  obtain ⟨i, hi, rfl⟩ := List.getElem_of_mem hmem
  simp only [Bool.and_eq_true] at hfresh
  exact h.peers ⟨i, by simpa using hi⟩ (by simpa using hfresh.1)

theorem UnitFits.decideSuspect (h : UnitFits u) : UnitFits (u.decideSuspect p) := { h with }

theorem UnitFits.obtained {source : Source} (h : UnitFits u) (hx : u.obtained p = some (x, source)) : plausible x := by
  unfold TempUnit.obtained at hx
  simp only at hx
  split at hx
  · cases hx; exact h.value
  · split at hx
    · cases hx; exact h.median ‹_›
    · split at hx
      · cases hx; exact h.value
      · cases hx

/-- The choice holds the temperature that it hands over, or hands over the default. -/
theorem choose_held (p : Params) (u : TempUnit) :
    (u.choose p).1.held = some (u.choose p).2.1 ∨ (u.choose p).2.1 = p.tempDefault := by
  unfold TempUnit.choose
  simp only
  split
  · exact .inl rfl
  · split
    · split
      · exact .inl ‹_›
      · exact .inr rfl
    · exact .inr rfl

/-- Beside the held value and its age, the choice changes what the SUSPECT decision changes. -/
theorem choose_unit (p : Params) (u : TempUnit) :
    ∃ held age, (u.choose p).1 = { u.decideSuspect p with held := held, heldAge := age } := by
  unfold TempUnit.choose
  simp only
  split
  · exact ⟨_, _, rfl⟩
  · split
    · split <;> exact ⟨_, _, rfl⟩
    · exact ⟨_, _, rfl⟩

theorem UnitFits.choose (h : UnitFits u) : UnitFits (u.choose p).1 := by
  unfold TempUnit.choose
  simp only
  split
  · have hs : UnitFits (u.decideSuspect p) := h.decideSuspect
    exact { hs with held := fun t ht => by cases ht; exact hs.obtained ‹_› }
  · split
    · split <;> exact { h with }
    · exact { h with }

theorem UnitConsistent.loadFilter (x : Int) : UnitConsistent (u.loadFilter x) :=
  ⟨fun _ => rfl, by simp [TempUnit.loadFilter], fun _ => rfl, by simp [TempUnit.loadFilter]⟩

theorem UnitConsistent.unaccepted (h : UnitConsistent u) : UnitConsistent (u.unaccepted p) := by
  obtain ⟨h1, h2, h3, h4⟩ := h
  unfold TempUnit.unaccepted
  split
  · rename_i hs
    exact ⟨by simp, by simp, by simp, fun _ => h4 (.inl hs)⟩
  · rename_i hs
    have hn : u.suspect ≠ true := fun e => by simp [hs, e] at h1
    refine ⟨fun e => absurd e hn, ?_, ?_, fun _ => h4 (.inr (.inl hs))⟩ <;> simp only <;> split <;> simp
  all_goals exact ⟨h1, h2, h3, h4⟩

/-- A unit that has loaded its filter may change its spike list. -/
theorem UnitConsistent.spikes (h : UnitConsistent u) (hl : u.filtered ≠ none) (l : List Int) :
    UnitConsistent { u with spikes := l } :=
  { h with idle := fun hs => absurd (h.idle hs).1 hl }

theorem unaccepted_filtered (p : Params) (u : TempUnit) : (u.unaccepted p).filtered = u.filtered := by
  obtain ⟨_, _, _, e⟩ := unaccepted_keeps p u
  rw [e]

theorem UnitConsistent.rejectReading (h : UnitConsistent u) (hl : u.filtered ≠ none) (x : Int) :
    UnitConsistent (u.rejectReading p x) := by
  unfold TempUnit.rejectReading
  simp only
  split
  · exact { UnitConsistent.loadFilter (u := u) x with suspect := by simp }
  · exact h.unaccepted.spikes (by rwa [unaccepted_filtered]) _

theorem UnitConsistent.probePhase (h : UnitConsistent u) (code : Nat) : UnitConsistent (u.probePhase p code).1 := by
  have running (hl : u.filtered ≠ none) : UnitConsistent (match probeReading p code with
      | some t => if (t - u.value).natAbs ≤ p.jump then (u.acceptReading p t, false) else (u.rejectReading p t, true)
      | none => ({ u.unaccepted p with spikes := [] }, false)).1 := by
    split
    · split
      · exact ⟨fun _ => rfl, by simp [TempUnit.acceptReading], fun _ => rfl, by simp [TempUnit.acceptReading]⟩
      · exact h.rejectReading hl _
    · exact h.unaccepted.spikes (by rwa [unaccepted_filtered]) _
  unfold TempUnit.probePhase
  split
  · exact h
  · split
    · exact .loadFilter _
    · exact h
  · exact running (h.loaded (.inl ‹_›))
  · exact running (h.loaded (.inr (.inl ‹_›)))
  · exact running (h.loaded (.inr (.inr ‹_›)))

theorem UnitConsistent.choose (h : UnitConsistent u) : UnitConsistent (u.choose p).1 := by
  obtain ⟨held, age, e⟩ := choose_unit p u
  rw [e]
  exact { h with
    suspect := fun hs => by
      simp only [TempUnit.decideSuspect, Bool.and_eq_true, decide_eq_true_eq] at hs
      exact hs.1.1 }

/-- A rejected reading joins three at most. -/
theorem joinSpikes_length (x : Int) (l : List Int) (h : l.length ≤ 3) : (TempUnit.joinSpikes x l).length ≤ 3 := by
  unfold TempUnit.joinSpikes
  split <;> simp <;> omega

theorem probePhase_spikes (p : Params) (code : Nat) (u : TempUnit) (h : u.spikes.length ≤ 3) :
    (u.probePhase p code).1.spikes.length ≤ 3 := by
  unfold TempUnit.probePhase
  split
  · exact h
  · split
    · exact Nat.zero_le _
    · exact h
  all_goals
    split
    · split
      · exact Nat.zero_le _
      · unfold TempUnit.rejectReading
        simp only
        split
        · exact Nat.zero_le _
        · exact joinSpikes_length _ _ h
    · exact Nat.zero_le _

namespace Effect

/-- The temperature unit changes alone, in a station that measures. -/
theorem ofTemp (hm : s.measuring = true) (u : TempUnit) (hl : s.temp.spikes.length ≤ 3 → u.spikes.length ≤ 3)
    (hf : UnitFits s.temp → UnitFits u) (hc : UnitConsistent s.temp → UnitConsistent u) :
    Effect s { s with temp := u } :=
  { refl s with
    capacities := fun ⟨hp, ho, hcl, hb, hs, hrest⟩ => ⟨hp, ho, hcl, hb, hl hs, hrest⟩
    temperatures := fun ⟨h1, h2, h3, hrest⟩ => by
      obtain ⟨g1, g2, g3⟩ := hf ⟨h1, h2, h3⟩
      exact ⟨g1, g2, g3, hrest⟩
    blocks := fun h => by
      have hmt : ({ s with temp := u } : State).measuring = true := hm
      rw [blocksSound_iff_of_measuring hm, probeConsistent_iff] at h
      rw [blocksSound_iff_of_measuring hmt, probeConsistent_iff]
      exact ⟨h.1, h.2.1, hc h.2.2⟩ }

/-- The handover values change, in a station that measures. -/
theorem ofHandover (hm : s.measuring = true) (h : Handover) (hp : TemperaturesFit s → plausible h.temp) :
    Effect s { s with assembler := { s.assembler with handover := h } } :=
  { refl s with
    temperatures := fun hs => ⟨hs.1, hs.2.1, hs.2.2.1, hs.2.2.2.1, hp hs, hs.2.2.2.2.2⟩
    blocks := blocksSound_of_measuring hm rfl rfl rfl }

/-- A temperature second (R50). -/
theorem takeSecond (code : BitVec 16) (hm : s.measuring = true) : Effect s (s.takeSecond code) := by
  unfold State.takeSecond
  simp only
  generalize hr : s.temp.probePhase s.control.params code.toNat = r
  generalize hq : (r.1.agePeers.choose s.control.params).1.noticeDue s.control.params _ = queued
  have hheld := choose_held s.control.params r.1.agePeers
  have unitSecond : Effect s { s with temp :=
      { (r.1.agePeers.choose s.control.params).1.countNotice queued with
        secondDue := s.temp.secondDue.map (fun t => later t Config.halfTicksPerSecond) } } := by
    subst hr
    refine ofTemp hm _ (fun h => ?_) (fun h => { (h.probePhase code.toNat).agePeers.choose with }) fun h =>
      { ({ h.probePhase code.toNat with } : UnitConsistent (TempUnit.agePeers _)).choose with }
    obtain ⟨_, _, e⟩ := choose_unit s.control.params (s.temp.probePhase s.control.params code.toNat).1.agePeers
    simp only [TempUnit.countNotice, e]
    exact probePhase_spikes _ _ _ h
  generalize r.1.agePeers.choose s.control.params = c at hheld unitSecond ⊢
  generalize hs1 : ({ s with temp := { c.1.countNotice queued with
    secondDue := s.temp.secondDue.map (fun t => later t Config.halfTicksPerSecond) } } : State) = s1 at unitSecond ⊢
  have key : ∃ s3, (if queued = true then (if r.2 = true then s1.bump .probeRejected else s1).produce (.temperature c.1.value)
      else if r.2 = true then s1.bump .probeRejected else s1) = s3 ∧ Effect s s3 ∧ s3.control = s.control ∧
      s3.temp.held = c.1.held := by
    have counted : Effect s1 (if r.2 = true then s1.bump .probeRejected else s1) := ite _ fun _ => bump _ s1
    have hc : (if r.2 = true then s1.bump .probeRejected else s1).control = s.control := by subst hs1; split <;> rfl
    have ht : (if r.2 = true then s1.bump .probeRejected else s1).temp.held = c.1.held := by subst hs1; split <;> rfl
    have h1 : Effect s _ := unitSecond.andThen counted (by rw [hc]; subst hs1; rfl)
    generalize (if r.2 = true then s1.bump .probeRejected else s1) = s2 at *
    refine ⟨_, rfl, ?_, ?_, ?_⟩ <;> cases queued
    · exact h1
    · exact h1.andThen (Effect.produce _ _) (Forms.produce none _ _).control
    · exact hc
    · exact (Forms.produce none _ _).control.trans hc
    · exact ht
    · exact (congrArg TempUnit.held (Forms.produce none _ _).temp).trans ht
  obtain ⟨s3, e, h3, hc3, ht3⟩ := key
  rw [e]
  have hm3 : s3.measuring = true := by rw [measuring_iff, hc3, ← measuring_iff]; exact hm
  refine h3.andThen (ofHandover hm3 _ fun hfit => ?_) rfl
  show plausible c.2.1
  rcases hheld with hh | hh
  · exact hfit.2.2.1 _ (ht3.trans hh)
  · rw [hh, ← hc3]
    exact hfit.2.2.2.1

/-- A TEMPERATURE reaches the peer table (R61). -/
theorem takeTemperature (j : Nat) (value : Int) (hm : s.measuring = true) : Effect s (s.takeTemperature j value) := by
  unfold State.takeTemperature
  split
  · exact bump _ s
  · rename_i hv
    split
    · rename_i hj
      refine ofTemp hm _ id (fun h => { h with peers := fun i hi => ?_ }) fun h => { h with }
      simp only [Fin.getElem_fin, Vector.getElem_set] at hi ⊢
      split
      · exact ⟨Int.not_lt.1 (not_or.1 hv).1, Int.not_lt.1 (not_or.1 hv).2⟩
      · rename_i hne
        rw [if_neg hne] at hi
        exact h.peers i hi
    · exact refl s

end Effect

end Sys2Proof.Machine.Laws
end

section
/-!
# The commands of the boundary unit, the assembler, the outputs and the store are effects
-/
namespace Sys2Proof.Machine.Laws
open Sys2Proof.Machine.Safety

variable {s t : State}

/-! ## Changing the vehicle of a slot -/

/-- The vehicle of a slot gives way to one that fits and has latched the same. -/
theorem Forms.replace {k : Slot} {v w : Vehicle} (hk : s.vehicleIn k = some v)
    (hl : VehicleFits (some v) → VehicleFits (some w)) (hc : w.correction = v.correction) (ht : w.latched = v.latched) :
    Forms none s (s.setSlot k (some w)) := by
  have h := Forms.setSlot k w s
  refine { h with
    capacities := fun _ hs => h.capacities (hl fun x e => ?_) hs
    corrections := fun _ hs => h.corrections (fun x e => ?_) hs
    temperatures := fun _ hs => h.temperatures (fun x e => ?_) hs } <;> cases e
  · cases k; exacts [hs.2.1 _ hk, hs.2.2.1 _ hk]
  · rw [hc]; cases k; exacts [hs.2.1 _ hk, hs.2.2 _ hk]
  · rw [ht]; cases k; exacts [hs.2.2.2.2.2.1 _ hk, hs.2.2.2.2.2.2 _ hk]

/-- A vehicle of a slot changes in something else than the number of its axles and what it has latched. -/
theorem Forms.replaceLike {k : Slot} {v w : Vehicle} (hk : s.vehicleIn k = some v) (hw : Forms.Like v w) :
    Forms none s (s.setSlot k (some w)) :=
  Forms.replace hk (fun h x e => by cases e; rw [hw.axles]; exact h v rfl) hw.correction hw.latched

/-! ## The boundary unit -/

/-- A notice is kept (R96). -/
theorem Forms.keepNotice (v? : Option Vehicle) (side : Half) (n : RemoteNotice) (s : State) :
    Forms v? s (s.keepNotice side n) := by
  unfold State.keepNotice
  simp only
  split
  · rename_i hcap
    refine (Forms.setRemote v? side _ s fun h => ?_).trans (Forms.bump v? _ _ (by decide))
    simp only [List.length_append, List.length_tail, List.length_singleton, Config.remoteCapacity] at hcap ⊢
    omega
  · rename_i hcap
    refine Forms.setRemote v? side _ s fun _ => ?_
    simp only [List.length_append, List.length_singleton, Config.remoteCapacity] at hcap ⊢
    omega

/-- A HALF-AXLE is taken (R95, R99). -/
theorem Forms.takeHalfAxle (f : RxFrame) (s : State) : Forms none s (s.takeHalfAxle f) := by
  unfold State.takeHalfAxle
  split
  · exact Forms.refl _ _
  · simp only
    split
    · exact (Forms.makeMatch _ _ _ _).trans (Forms.closeTest _ _)
    · split
      · exact Forms.refl _ _
      · exact Forms.keepNotice _ _ _ _

/-- The vehicle that a TRANSFER or YIELD-CLOSED goes to stands in its slot, is an OWNER one of that peer and number, and
carries no PARTNER-LOST (R105, R107). -/
theorem ownerFor_some {source number : Nat} {k : Slot} {v : Vehicle} (h : s.ownerFor source number = some (k, v)) :
    s.vehicleIn k = some v ∧ State.takesTransfers source number v = true := by
  unfold State.ownerFor at h
  split at h
  · cases h
    obtain ⟨h1, h2⟩ := Option.filter_eq_some_iff.1 ‹_›
    exact ⟨h1, h2⟩
  · cases h
    obtain ⟨h1, h2⟩ := Option.filter_eq_some_iff.1 ‹s.assembler.closingVehicle.filter _ = some _›
    exact ⟨h1, h2⟩
  · cases h

/-- An inserted transfer is one more axle (R105). -/
theorem insertTransfer_keeps (p : Params) (f : TransferFields) (time : LocalTime) (v : Vehicle) :
    (State.insertTransfer p f time v).axles.length = v.axles.length + 1 ∧
      (State.insertTransfer p f time v).correction = v.correction ∧
      (State.insertTransfer p f time v).latched = v.latched := by
  have inserted (n : Nat) (a : Axle) : (v.insertAxle n a).axles.length = v.axles.length + 1 := by
    simp only [Vehicle.insertAxle, List.length_append, List.length_cons, List.length_take, List.length_drop]
    omega
  unfold State.insertTransfer
  simp only
  split <;> exact ⟨inserted _ _, rfl, rfl⟩

/-- A TRANSFER is taken by the vehicle of a slot, which has counted it (R105). -/
theorem Forms.mergeTransfer {k : Slot} {v w : Vehicle} (hk : s.vehicleIn k = some v) (hw : Forms.Like v w)
    (f : TransferFields) (time : LocalTime) : Forms none s (s.mergeTransfer k f time w) := by
  unfold State.mergeTransfer
  simp only
  split
  · rename_i h load a _
    have hfill := fillAxle_like a h (State.transferHalf f load) w
    refine ((Forms.replaceLike hk ?_).trans (Forms.dropEdge _ _ _ _)).trans (Forms.closeTest _ _)
    exact ⟨hfill.axles.trans hw.axles, hfill.correction.trans hw.correction, hfill.latched.trans hw.latched⟩
  · split
    · exact (Forms.replaceLike hk hw).trans (Forms.bump _ _ _ (by decide))
    · split
      · exact Forms.replaceLike hk ⟨hw.axles, hw.correction, hw.latched⟩
      · rename_i hcap
        obtain ⟨h1, h2, h3⟩ := insertTransfer_keeps s.control.params f time w
        refine Forms.replace hk (fun _ x e => ?_) (h2.trans hw.correction) (h3.trans hw.latched)
        cases e
        simp only [Config.axleCapacity] at hcap
        omega

/-- A TRANSFER is taken (R105). -/
theorem Forms.takeTransfer (f : RxFrame) (s : State) : Forms none s (s.takeTransfer f) := by
  unfold State.takeTransfer
  simp only
  split
  · exact Forms.refl _ _
  · split
    · exact Forms.bump _ _ _ (by decide)
    · split
      · exact Forms.bump _ _ _ (by decide)
      · rename_i h
        exact Forms.mergeTransfer (ownerFor_some h).1 (by exact ⟨rfl, rfl, rfl⟩) _ _

/-- A YIELD-CLOSED is taken (R107). -/
theorem Forms.takeYieldClosed (f : RxFrame) (s : State) : Forms none s (s.takeYieldClosed f) := by
  unfold State.takeYieldClosed
  simp only
  split
  · exact Forms.refl _ _
  · split
    · exact Forms.refl _ _
    · exact (Forms.replaceLike (ownerFor_some ‹_›).1 (by exact ⟨rfl, rfl, rfl⟩)).trans (Forms.closeTest _ _)

theorem losePartner_like (v : Vehicle) : Forms.Like v (State.losePartner v) := by
  unfold State.losePartner
  split <;> exact ⟨rfl, rfl, rfl⟩

/-- A partner has restarted (R111). -/
theorem Forms.partnerRestart (k : Slot) (j : Nat) (s : State) : Forms none s (s.partnerRestart k j) := by
  unfold State.partnerRestart
  split
  · exact Forms.refl _ _
  · split
    · exact (Forms.replaceLike ‹_› (losePartner_like _)).trans (Forms.resolveEdges _ _ _)
    · exact Forms.refl _ _

/-- An ANNOUNCE is taken (R111). -/
theorem Forms.takeAnnounce (j : Nat) (s : State) : Forms none s (s.takeAnnounce j) := by
  unfold State.takeAnnounce
  simp only
  refine Forms.trans ?_ (Forms.closeTest _ _)
  refine ((Forms.partnerRestart .closingSlot j s).trans (Forms.partnerRestart .openSlot j _)).trans ?_
  refine Forms.boundary none _ _ fun ⟨h1, h2, h3⟩ => ⟨h1, ?_, ?_⟩
  · exact (List.length_filter_le _ _).trans h2
  · exact (List.length_filter_le _ _).trans h3

theorem Forms.endHold {k : Slot} {v : Vehicle} (hk : s.vehicleIn k = some v) : Forms none s (s.endHold k v) := by
  unfold State.endHold
  refine Forms.trans ?_ (Forms.closeTest _ _)
  exact (Forms.replaceLike hk (by exact ⟨rfl, rfl, rfl⟩)).trans (Forms.resolveEdges _ _ _)

/-- A gap timer comes due (R82). -/
theorem Forms.takeGap {k : Slot} {v : Vehicle} (hk : s.vehicleIn k = some v) : Forms none s (s.takeGap k v) := by
  have marked : Forms none s (s.setSlot k (some (v.takeGapMark s.control.params s.localTime))) :=
    Forms.replaceLike hk ⟨rfl, rfl, rfl⟩
  cases k
  · exact marked.trans (Forms.endOpen _ _)
  · exact marked.trans (Forms.closeTest _ _)

/-! ## What is due in a station that measures -/

theorem gapVehicle_some {k : Slot} {v : Vehicle} (h : s.gapVehicle k = some v) :
    s.measuring = true ∧ s.vehicleIn k = some v := by
  unfold State.gapVehicle at h
  split at h
  · exact ⟨((measuringSample_iff s).1 ‹_›).1, (Option.filter_eq_some_iff.1 h).1⟩
  · cases h

theorem expiredHold_some {k : Slot} {v : Vehicle} (h : s.expiredHold k = some v) :
    s.measuring = true ∧ s.vehicleIn k = some v := by
  unfold State.expiredHold at h
  split at h
  · exact ⟨((measuringSample_iff s).1 ‹_›).1, (Option.filter_eq_some_iff.1 h).1⟩
  · cases h

theorem expiredEdge_some {e : EdgeEntry} (h : s.expiredEdge = some e) : s.measuring = true := by
  unfold State.expiredEdge at h
  split at h
  · exact ((measuringSample_iff s).1 ‹_›).1
  · cases h

theorem expiredNotice_some {side : Half} {n : RemoteNotice} (h : s.expiredNotice side = some n) :
    s.measuring = true := by
  unfold State.expiredNotice at h
  split at h
  · exact ((measuringSample_iff s).1 ‹_›).1
  · cases h

theorem agedLead_some {h : Half} {x : Pulse} (hx : s.agedLead h = some x) : s.measuring = true := by
  unfold State.agedLead at hx
  split at hx
  · exact ((measuringSample_iff s).1 ‹_›).1
  · cases hx

theorem agedOrphan_some {h : Half} {x : Pulse} (hx : s.agedOrphan h = some x) : s.measuring = true := by
  unfold State.agedOrphan at hx
  split at hx
  · exact ((measuringSample_iff s).1 ‹_›).1
  · cases hx

theorem dueHalf_some {h : Half} {x : HalfAxle} (hx : s.dueHalf h = some x) :
    s.measuring = true ∧ (s.pairs.get h).slot = some x := by
  unfold State.dueHalf at hx
  split at hx
  · exact ⟨((measuringSample_iff s).1 ‹_›).1, (Option.filter_eq_some_iff.1 hx).1⟩
  · cases hx

theorem loopIsDue_measuring (h : s.loopIsDue = true) : s.measuring = true := by
  simp only [State.loopIsDue, Bool.and_eq_true] at h
  exact ((measuringSample_iff s).1 h.1.1.1).1

/-- A station whose measuring blocks do not stand as a reset left them measures. -/
theorem measuring_of_blocks (h : BlocksSound s) (hn : ¬ MeasuringBlocksReset s) : s.measuring = true := by
  rw [measuring_iff]
  by_contra hm
  refine hn (h.1.1 ?_)
  cases hst : s.control.station with
  | mute o => cases o <;> simp_all
  | _ => simp_all

namespace Effect

/-- The output unit acts, where it does not stand as a reset left it. -/
theorem ofActiveOutput (s : State) (o : Output) (ht : s.output.triggers.length ≤ 4 → o.triggers.length ≤ 4)
    (ha : s.output ≠ State.reset.output) : Effect s { s with output := o } :=
  ofOutput s o ht fun h =>
    have hn : ¬ MeasuringBlocksReset s := fun ⟨_, _, _, _, _, _, _, _, _, _, _, _, _, _, _, ho⟩ => ha ho
    blocksSound_of_measuring (measuring_of_blocks h hn) rfl rfl rfl h

/-- The store acts in a save. -/
theorem ofSave (s : State) (d : Drift) (hd : d.bands = s.drift.bands) (ha : s.drift.store ≠ .idle) :
    Effect s { s with drift := d } :=
  ofDrift s d (fun h => by rw [hd]; exact h) fun h =>
    have hn : ¬ MeasuringBlocksReset s := fun ⟨_, _, _, _, _, _, _, _, _, _, _, hs, _⟩ => ha hs
    blocksSound_of_measuring (measuring_of_blocks h hn) rfl rfl rfl h

/-- The record of the memory port changes. -/
theorem ofPort (s : State) (port : List PortCommand) : Effect s { s with drift := { s.drift with port := port } } :=
  { refl s with }

theorem startPulse (ha : s.output ≠ State.reset.output) : Effect s s.startPulse :=
  ofActiveOutput s _ (fun h => by simp only [List.length_tail]; omega) ha

theorem endPulse (ha : s.output ≠ State.reset.output) : Effect s s.endPulse := ofActiveOutput s _ id ha

theorem endGap (ha : s.output ≠ State.reset.output) : Effect s s.endGap := by
  unfold State.endGap
  split
  · exact startPulse ha
  · exact ofActiveOutput s _ id ha

theorem clearOverload (s : State) : Effect s s.clearOverload := by
  unfold State.clearOverload
  refine ite _ fun h => ofOutput s _ id (blocksSound_of_measuring ?_ rfl rfl rfl)
  simp only [Bool.and_eq_true] at h
  exact h.1

/-! ## The loop -/

theorem ofLoop (hm : s.measuring = true) (l : Loop) : Effect s { s with assembler := { s.assembler with loop := l } } :=
  { refl s with blocks := blocksSound_of_measuring hm rfl rfl rfl }

theorem readLoop (hm : s.measuring = true) (high : Bool) : Effect s (s.readLoop high) := by
  unfold State.readLoop
  exact ite _ fun _ => ofLoop hm _

theorem separate_like (t : LocalTime) (v : Vehicle) : Forms.Like v (State.separate t v) := by
  unfold State.separate
  split <;> exact ⟨rfl, rfl, rfl⟩

/-- The qualified loop state changes (R75, R76). -/
theorem takeLoop (hm : s.measuring = true) : Effect s s.takeLoop := by
  have hl := ofLoop hm { s.assembler.loop with qualified := some s.assembler.loop.level }
  unfold State.takeLoop
  simp only
  split
  · refine hl.andThen (ofMeasuring ?_ ?_) rfl
    · exact hm
    · cases hv : s.assembler.openVehicle with
      | none => exact Forms.clearSlot none .openSlot _
      | some v => exact Forms.replaceLike (k := .openSlot) hv (separate_like _ v)
  · exact hl

/-! ## A sample -/

/-- The memory's status may be read again (R137, R138, R160). -/
theorem pollMemory (s : State) : Effect s s.pollMemory := by
  unfold State.pollMemory
  exact ite _ fun _ => ofPort s _

theorem countOverlong (l : List Detection) (s : State) : Effect s (s.countOverlong l) := by
  unfold State.countOverlong
  simp only
  split
  · exact refl s
  · exact bumpBy _ _ s

/-- A disabled channel takes no sample (R2). -/
theorem channelSample_disabled {c : Chan} (h : s.control.params.gain.get c = 0) (code : BitVec 16) :
    s.channelSample c code = (s.channels.get c, .nothing) := by
  unfold State.channelSample
  simp only
  rw [if_pos h]

theorem countOverlong_control (l : List Detection) (s : State) : (s.countOverlong l).control = s.control := by
  unfold State.countOverlong
  simp only
  split <;> rfl

theorem readLoop_control (high : Bool) (s : State) : (s.readLoop high).control = s.control := by
  unfold State.readLoop
  split <;> rfl

/-- The four channels take their samples. -/
theorem ofChannels (hm : s.measuring = true) (ll lr tl tr : BitVec 16) :
    Effect s { s with channels := ⟨(s.channelSample .ll ll).1, (s.channelSample .lr lr).1, (s.channelSample .tl tl).1,
      (s.channelSample .tr tr).1⟩ } :=
  { refl s with
    blocks := fun h => by
      rw [blocksSound_iff_of_measuring hm] at h
      refine (blocksSound_iff_of_measuring (by exact hm)).2 ⟨fun c hc => ?_, h.2⟩
      rw [← h.1 c hc]
      cases c <;> exact congrArg Prod.fst (channelSample_disabled (s := s) hc _) }

/-- A sample of a station that measures (R1, R75). -/
theorem takeSample (hm : s.measuring = true) (ll lr tl tr : BitVec 16) (loopHigh : Bool) :
    Effect s (s.takeSample ll lr tl tr loopHigh) := by
  have sampled := (ofChannels hm ll lr tl tr).andThen (countOverlong [(s.channelSample .ll ll).2, (s.channelSample .lr lr).2,
    (s.channelSample .tl tl).2, (s.channelSample .tr tr).2] _) (countOverlong_control _ _)
  unfold State.takeSample
  simp only
  generalize hs1 : State.countOverlong _ _ = s1 at sampled ⊢
  have hc1 : s1.control = s.control := hs1 ▸ countOverlong_control _ _
  have hm1 : s1.measuring = true := by rw [measuring_iff, hc1, ← measuring_iff]; exact hm
  have hm2 : (s1.readLoop loopHigh).measuring = true := by
    rw [measuring_iff, readLoop_control, ← measuring_iff]; exact hm1
  exact (sampled.andThen (readLoop hm1 _) (readLoop_control _ _)).andThen (ofMeasuring hm2 (Forms.arrivals _ _ _ _))
    (Forms.arrivals none _ _ _).control

end Effect

end Sys2Proof.Machine.Laws
end

section
/-!
# The start of the station, and every command as an effect or a reset

A start with a GOOD image is one effect from STARTING to RUNNING, any other start one to HALTED. `exec_effect` then says of
all 47 commands that each is an effect, or a reset that leaves one of two states after reset.
-/
namespace Sys2Proof.Machine.Laws
open Sys2Proof.Machine.Safety

variable {s t : State}

/-! ## The prepared parameters -/

theorem clampNat_eq {lo hi : Nat} (h : lo ≤ hi) (x : Nat) : clampNat lo hi x = max lo (min hi x) := by
  unfold clampNat
  split
  · omega
  · split <;> omega

theorem clampInt_eq {lo hi : Int} (h : lo ≤ hi) (x : Int) : clampInt lo hi x = max lo (min hi x) := by
  unfold clampInt
  split
  · omega
  · split <;> omega

theorem cutAfter_sublist (a : CurvePoint) (l : List CurvePoint) : (cutAfter a l).Sublist l := by
  induction l generalizing a with
  | nil => exact .refl _
  | cons b l ih =>
    unfold cutAfter
    split
    · exact (ih b).cons_cons b
    · exact List.nil_sublist _

theorem cutCurve_sublist (l : List CurvePoint) : (cutCurve l).Sublist l := by
  cases l with
  | nil => exact .refl _
  | cons a l => exact (cutAfter_sublist a l).cons_cons a

theorem prepareCurve_length (img : List Byte) : (prepareCurve img).value.length ≤ 8 := by
  refine (cutCurve_sublist _).length_le.trans ?_
  rw [List.length_map, List.length_map, List.length_range]
  show clampNat 0 8 _ ≤ 8
  rw [clampNat_eq (by omega)]
  omega

theorem prepareEntries_length (img : List Byte) (n at' : Nat) : (prepareEntries img n at').length = n := by
  induction n generalizing at' with
  | zero => rfl
  | succ n ih => simp [prepareEntries, ih]

theorem prepareEntries_mem {img : List Byte} {n at' : Nat} {e : Prepared (Option ClassEntry)}
    (h : e ∈ prepareEntries img n at') : ∃ a, e = prepareEntry img a := by
  induction n generalizing at' with
  | zero => cases h
  | succ n ih =>
    rcases List.mem_cons.1 h with h | h
    · exact ⟨_, h⟩
    · exact ih h

theorem prepareEntry_conditions {img : List Byte} {a : Nat} {e : ClassEntry} (h : (prepareEntry img a).value = some e) :
    e.conditions.length ≤ 6 := by
  unfold prepareEntry at h
  simp only at h
  split at h
  · cases h
  · cases h
    rw [List.length_map, List.length_map, List.length_range]
    show clampNat 0 6 _ ≤ 6
    rw [clampNat_eq (by omega)]
    omega

theorem prepareTable_fits (img : List Byte) : (prepareTable img).value.length ≤ 24 ∧
    ∀ e ∈ (prepareTable img).value, e.conditions.length ≤ 6 := by
  constructor
  · refine (List.length_filterMap_le _ _).trans ?_
    rw [prepareEntries_length]
    show clampNat 0 24 _ ≤ 24
    rw [clampNat_eq (by omega)]
    omega
  · intro e he
    obtain ⟨x, hx, hv⟩ := List.mem_filterMap.1 he
    obtain ⟨a, rfl⟩ := prepareEntries_mem hx
    exact prepareEntry_conditions hv

/-- A prepared parameter set is within its capacities (R44, R114, R115). -/
theorem prepareImage_fits (own : Nat) (img : List Byte) : ParamsFit (prepareImage own img).value :=
  ⟨prepareCurve_length img, prepareTable_fits img⟩

/-- A prepared default temperature is plausible (R162). -/
theorem prepareImage_tempDefault (own : Nat) (img : List Byte) : plausible (prepareImage own img).value.tempDefault := by
  show plausible (clampInt (-400) 800 _)
  rw [clampInt_eq (by omega)]
  unfold plausible
  omega

/-! ## The start -/

theorem starts_iff (s : State) : s.starts = true ↔ s.control.station = .starting ∧ s.control.held = false := by
  simp [State.starts]

/-- The link of a station that starts is still, and stays sound when the station enters RUNNING or HALTED. -/
theorem LinkSound.started {c : Control} (hs : s.control.station = .starting)
    (hc : c.station = .running ∨ c.station = .halted) (h : LinkSound s) : LinkSound { s with control := c } := by
  obtain ⟨hq, ⟨h1, h2, h3, h4, h5, h6⟩, hb⟩ := h
  have hidle := (h3 hs).1
  refine ⟨hq, ⟨h1, h2, fun h => ?_, ⟨fun h => ?_, ?_⟩, h5, h6⟩, hb⟩
  · rcases hc with e | e <;> simp [e] at h
  · have : s.link.transmitter = .mute := h
    rw [hidle] at this
    cases this
  · rintro ⟨o, ho⟩
    rcases hc with e | e <;> simp [e] at ho

namespace Effect

theorem startStatus (s : State) : Effect s s.startStatus := ofControl s s.control.causes _

/-- An effect that moves the station out of STARTING, behind it the announcement and the status due time (R164, R165). -/
theorem thenAnnounce {b : Body} (h : Effect s t) (hn : t.control.station ≠ .starting) :
    Effect s (t.produce b).startStatus := by
  refine (h.andThen (produce b t) (Forms.produce none b t).control).compose (startStatus _) ?_ fun hs => ?_
  · have hp := (h.andThen (produce b t) (Forms.produce none b t).control).moves
    cases hp with
    | stays e => exact .stays e
    | starts b e i => exact .starts b e i
    | halts b e i => exact .halts b e i
    | mutesRunning b e => exact .mutesRunning b e
    | mutesHalted b e => exact .mutesHalted b e
  · exact ((h.setup hs).trans ((produce b t).setup hn)).trans ((startStatus _).setup (by
      rw [(Forms.produce none b t).control]; exact hn))

/-- The station enters HALTED from STARTING (R165). -/
theorem enterHalted (hs : s.starts = true) (image : ImageState)
    (hi : image = .noMemory ∨ image = .badFormat ∨ image = .badLength ∨ image = .badCheck) :
    Effect s (s.enterHalted image) := by
  obtain ⟨hst, hheld⟩ := (starts_iff s).1 hs
  have halted : Effect s { s with control := { s.control with station := .halted, image := image } } :=
    { refl s with
      moves := .halts hst rfl hi
      setup := fun h => absurd hst h
      link := LinkSound.started hst (.inr rfl)
      blocks := fun ⟨⟨hn, hc, _⟩, hp⟩ => ⟨⟨fun _ => hn (.inl hst), hc, fun h => by
        have h : s.control.held = true := h
        simp [hheld] at h⟩, hp⟩ }
  unfold State.enterHalted
  simp only
  split
  · exact halted
  · exact halted.thenAnnounce (by simp)

end Effect

/-- The station in RUNNING with its prepared image and its corrections, before it announces itself (R164). -/
def runningState (image correction : List Byte) (s : State) : State :=
  let r := prepareImage s.control.number image
  { s with
    control := { s.control with
      station := .running, image := .good, revision := u16At image 3, params := r.value, adjusted := r.adjusted }
    temp := { s.temp with status := if r.value.probeFitted then .starting else .absent, secondDue := some s.localTime }
    assembler := { s.assembler with handover := handoverOf r.value r.value.tempDefault .default }
    drift := { State.loadCorrections (correction.take correctionSize) s.drift with
      port := [.readData 0 (imageLength image + 2), .readData sectorSize correctionSize] }
    output := { s.output with
      cameraEnd := some (later s.localTime (r.value.pulseTicks + r.value.gapTicks)) } }

theorem startFlow_good {image : List Byte} (h : checkImage image = .good) (correction : List Byte) (s : State) :
    s.startFlow image correction =
      ((runningState image correction s).produce (runningState image correction s).announceBody).startStatus := by
  unfold State.startFlow
  rw [if_pos h]
  rfl

theorem startFlow_bad {image : List Byte} (h : checkImage image ≠ .good) (correction : List Byte) (s : State) :
    s.startFlow image correction = { s with drift := { s.drift with
      port := [.readData 0 (imageLength image + 2)] } }.enterHalted (checkImage image) := by
  unfold State.startFlow
  rw [if_neg h]

/-- An image that is not GOOD fails one of the three checks (R161). -/
theorem checkImage_bad {image : List Byte} (h : checkImage image ≠ .good) :
    checkImage image = .badFormat ∨ checkImage image = .badLength ∨ checkImage image = .badCheck := by
  unfold checkImage at *
  split
  · exact .inl rfl
  · split
    · exact .inr (.inl rfl)
    · split
      · exact .inr (.inr rfl)
      · simp_all

/-- Loaded and defaulted corrections lie within their range (R141, R142). -/
theorem loadCorrections_inRange (bytes : List Byte) (d : Drift) (b : Fin 8) :
    correctionInRange (State.loadCorrections bytes d).bands[b].correction := by
  unfold State.loadCorrections
  split
  · simp only [State.loadedBands, Fin.getElem_fin, Vector.getElem_ofFn, clampNat_eq (show 3686 ≤ 4506 by omega)]
    unfold correctionInRange
    omega
  · simp only [Fin.getElem_fin, Vector.getElem_replicate, Band.reset]
    unfold correctionInRange
    omega

namespace Effect

/-- The station enters RUNNING from STARTING (R164). -/
theorem enterRunning (hs : s.starts = true) (image correction : List Byte) :
    Effect s (runningState image correction s) := by
  obtain ⟨hst, hheld⟩ := (starts_iff s).1 hs
  exact
    { refl s with
      moves := .starts hst rfl rfl
      setup := fun h => absurd hst h
      capacities := fun ⟨hp, ho, hc, hb, hsp, ht, hl, _⟩ => ⟨hp, ho, hc, hb, hsp, ht, hl, prepareImage_fits _ _⟩
      corrections := fun ⟨_, h2, h3⟩ => ⟨fun b => loadCorrections_inRange _ _ b, h2, h3⟩
      temperatures := fun ⟨h1, h2, h3, _, _, h6⟩ =>
        ⟨h1, h2, h3, prepareImage_tempDefault s.control.number image, prepareImage_tempDefault s.control.number image, h6⟩
      link := fun h => LinkSound.started hst (.inl rfl) h
      blocks := fun h => by
        obtain ⟨hch, -, -, -, -, -, -, ht, -⟩ := h.1.1 (.inl hst)
        refine (blocksSound_iff_of_measuring rfl).2 ⟨fun c _ => ?_, hheld, ?_⟩
        · show s.channels.get c = _
          rw [hch]
          cases c <;> rfl
        · have hstatus : (runningState image correction s).temp.status = .absent ∨
              (runningState image correction s).temp.status = .starting := by
            show (if _ then OwnStatus.starting else .absent) = .absent ∨ (if _ then OwnStatus.starting else .absent) = .starting
            split <;> simp
          have hfiltered : (runningState image correction s).temp.filtered = none ∧
              (runningState image correction s).temp.spikes = [] ∧ (runningState image correction s).temp.holdAge = 0 ∧
              (runningState image correction s).temp.suspect = false := by
            show s.temp.filtered = none ∧ s.temp.spikes = [] ∧ s.temp.holdAge = 0 ∧ s.temp.suspect = false
            rw [ht]
            exact ⟨rfl, rfl, rfl, rfl⟩
          obtain ⟨hf, hsp, hh, hsus⟩ := hfiltered
          exact ⟨by simp [hsus], fun _ => ⟨hf, hsp, hh⟩, fun _ => hh, by rcases hstatus with e | e <;> simp [e]⟩ }

/-- The STARTING flow (R161 to R164). -/
theorem startFlow (hs : s.starts = true) (image correction : List Byte) : Effect s (s.startFlow image correction) := by
  by_cases hg : checkImage image = .good
  · rw [startFlow_good hg]
    exact (enterRunning hs image correction).thenAnnounce (by simp [runningState])
  · rw [startFlow_bad hg]
    refine (ofPort s [.readData 0 (imageLength image + 2)]).trans rfl (enterHalted ?_ _ (.inr (checkImage_bad hg)))
    exact hs

/-- A STATUS falls due (R169). -/
theorem takeStatus (s : State) : Effect s s.takeStatus :=
  (produce _ s).trans (by rw [(Forms.produce none _ s).control]) (ofControl _ _ _)

end Effect

/-! ## The resets -/

/-- What a reset leaves: the blocks as they stand after reset, in STARTING, or with station number 0 in HALTED. -/
structure AfterReset (s t : State) : Prop where
  localTime : t.localTime = 0
  pending : t.pending = s.pending
  station : t.control.station = .starting ∨ t.control.station = .halted ∧ t.control.number = 0
  heldStarting : t.control.held = true → t.control.station = .starting
  params : t.control.params = Params.unprepared
  counters : t.counters = State.reset.counters
  channels : t.channels = State.reset.channels
  pairs : t.pairs = State.reset.pairs
  assembler : t.assembler = State.reset.assembler
  boundary : t.boundary = State.reset.boundary
  temp : t.temp = State.reset.temp
  drift : ∃ port, t.drift = { State.reset.drift with port := port }
  output : t.output = State.reset.output
  link : t.link = State.reset.link

theorem afterReset_reset : AfterReset State.reset State.reset :=
  ⟨rfl, rfl, .inl rfl, fun _ => rfl, rfl, rfl, rfl, rfl, rfl, rfl, rfl, ⟨_, rfl⟩, rfl, rfl⟩

theorem heldInReset_afterReset (s : State) : AfterReset s s.heldInReset :=
  ⟨rfl, rfl, .inl rfl, fun _ => rfl, rfl, rfl, rfl, rfl, rfl, rfl, rfl, ⟨_, rfl⟩, rfl, rfl⟩

/-- The state after a reset whose straps have been read (R159, R165). -/
def restarted (number : Nat) (rate : BitRate) (causes : Causes) (s : State) : State :=
  { State.reset with
    control := { State.reset.control with
      number := number, rate := rate, causes := causes, station := if number = 0 then .halted else .starting }
    drift := { State.reset.drift with port := if number = 0 then [] else [.readStatus] }
    freeCount := s.freeCount, pending := s.pending }

theorem afterReset_eq (straps : Straps) (causes : Causes) (s : State) :
    s.afterReset straps causes = restarted (strapNumber straps) (strapRate straps) causes s := by
  unfold State.afterReset restarted State.enterHalted
  by_cases h : strapNumber straps = 0
  · rw [if_pos h, if_pos h, if_pos h, if_pos h]
    rfl
  · rw [if_neg h, if_neg h, if_neg h]
    rfl

theorem restarted_afterReset (number : Nat) (rate : BitRate) (causes : Causes) (s : State) :
    AfterReset s (restarted number rate causes s) := by
  refine ⟨rfl, rfl, ?_, fun h => ?_, rfl, rfl, rfl, rfl, rfl, rfl, rfl, ⟨_, rfl⟩, rfl, rfl⟩
  · unfold restarted
    by_cases h : number = 0 <;> simp [h]
  · cases h

/-! ## Every command -/

/-- A frame is taken from the receive queue by a station that measures, and without effect by any other (R68, R112). -/
theorem Effect.dispatchedThen (h : s.dispatched.measuring = true → Effect s.dispatched t) :
    Effect s (if s.measuring then t else s.dispatched) := by
  split
  · exact (dispatched s).trans rfl (h ‹_›)
  · exact dispatched s

/-- The read-back leaves the bands alone (R139). -/
theorem verified_bands (now : LocalTime) (readBack : List Byte) (d : Drift) :
    (d.verified now readBack).bands = d.bands := by
  unfold Drift.verified
  simp only
  repeat' split
  all_goals rfl

/-- Every command is an effect, or a reset. -/
theorem exec_effect {c : Instr} (h : exec c s = .next t) : Effect s t ∨ isReset c ∧ AfterReset s t := by
  cases c
  case powerUp straps =>
    cases h
    exact .inr ⟨trivial, afterReset_eq straps _ s ▸ restarted_afterReset _ _ _ _⟩
  case resetPin low release =>
    change execResetPin low release s = _ at h
    unfold execResetPin at h
    simp only [Host.Outcome.next.injEq] at h
    subst h
    split
    · exact .inl (.refl s)
    · rename_i hlow
      refine .inr ⟨Nat.le_of_not_lt hlow, ?_⟩
      split
      · exact heldInReset_afterReset s
      · rw [afterReset_eq]
        exact restarted_afterReset _ _ _ _
  case restart straps =>
    change execRestart straps s = _ at h
    unfold execRestart at h
    simp only [Host.Outcome.next.injEq] at h
    subst h
    split
    · rw [afterReset_eq]
      exact .inr ⟨trivial, restarted_afterReset _ _ _ _⟩
    · exact .inl (.refl s)
  all_goals refine .inl ?_
  case memoryReady image correction =>
    cases h
    refine .ite _ fun h => .startFlow ?_ image correction
    simp only [Bool.and_eq_true] at h
    exact h.1.1
  case noMemory =>
    cases h
    refine .ite _ fun h => .enterHalted ?_ _ (.inl rfl)
    simp only [State.memoryIsLost, Bool.and_eq_true] at h
    exact h.1.1
  case statusDue => cases h; exact .ite _ fun _ => .takeStatus s
  case clearLatch => cases h; exact .ite _ fun _ => (Effect.dispatched s).trans rfl (.clearOverload _)
  case statusNow =>
    cases h
    refine .ite _ fun _ => ?_
    split
    · exact (Effect.dispatched s).trans rfl (.produce _ _)
    · exact .dispatched s
  case commandCodeUnknown => cases h; exact .ite _ fun _ => (Effect.dispatched s).trans rfl (.bump _ _)
  case commandNotAddressed => cases h; exact .ite _ fun _ => .dispatched s
  case vehicleStatusDropped => cases h; exact .ite _ fun _ => .dispatched s
  case sample ll lr tl tr loopHigh =>
    change execSample ll lr tl tr loopHigh s = _ at h
    unfold execSample at h
    split at h
    · split at h <;> cases h
      · have hc : s.pollMemory.control = s.control := by unfold State.pollMemory; split <;> rfl
        refine (Effect.pollMemory s).trans (by rw [hc]) (.takeSample ?_ _ _ _ _ _)
        rw [measuring_iff, hc, ← measuring_iff]
        assumption
      · exact .pollMemory s
    · cases h; exact .refl s
  case leadExpiryByAge half =>
    change execLeadExpiryByAge half s = _ at h
    unfold execLeadExpiryByAge at h
    split at h <;> cases h
    · refine .ofMeasuring (agedLead_some ‹_›) (Forms.trans ?_ (Forms.expireLeads _ _ _))
      exact Forms.setLists none half _ s (fun hl => (List.length_erase_le).trans hl) id id
    · exact .refl s
  case orphanExpiryByAge half =>
    change execOrphanExpiryByAge half s = _ at h
    unfold execOrphanExpiryByAge at h
    split at h <;> cases h
    · refine .ofMeasuring (agedOrphan_some ‹_›) (Forms.trans ?_ (Forms.expireOrphans _ _ _))
      exact Forms.setLists none half _ s id (fun hl => (List.length_erase_le).trans hl) id
    · exact .refl s
  case halfRelease half =>
    change execHalfRelease half s = _ at h
    unfold execHalfRelease at h
    split at h <;> cases h
    · exact .ofMeasuring (dueHalf_some ‹_›).1 (Forms.releaseHalf _ _ _ _)
    · exact .refl s
  case loopTransition => cases h; exact .ite _ fun hd => .takeLoop (loopIsDue_measuring hd)
  case gapTimer k =>
    change execGapTimer k s = _ at h
    unfold execGapTimer at h
    split at h <;> cases h
    · exact .ofMeasuring (gapVehicle_some ‹_›).1 (Forms.takeGap (gapVehicle_some ‹_›).2)
    · exact .refl s
  case triggerDue =>
    cases h
    refine .ite _ fun hd => .startPulse fun ho => ?_
    simp [State.triggerIsDue, ho, State.reset] at hd
  case pulseEnd =>
    cases h
    refine .ite _ fun hd => .endPulse fun ho => ?_
    simp [State.pulseEndIsDue, ho, State.reset] at hd
  case gapEnd =>
    cases h
    refine .ite _ fun hd => .endGap fun ho => ?_
    simp [State.gapEndIsDue, ho, State.reset, dueReached] at hd
  case edgeWaitExpiry =>
    change execEdgeWaitExpiry s = _ at h
    unfold execEdgeWaitExpiry at h
    split at h <;> cases h
    · exact .ofMeasuring (expiredEdge_some ‹_›) ((Forms.resolveEdge _ _ _).trans (Forms.closeTest _ _))
    · exact .refl s
  case remoteNoticeExpiry side =>
    change execRemoteNoticeExpiry side s = _ at h
    unfold execRemoteNoticeExpiry at h
    split at h <;> cases h
    · refine .ofMeasuring (expiredNotice_some ‹_›) ((Forms.setRemote none side _ s fun hl => ?_).trans
        (Forms.bump _ _ _ (by decide)))
      exact (List.length_erase_le).trans hl
    · exact .refl s
  case yieldHoldExpiry k =>
    change execYieldHoldExpiry k s = _ at h
    unfold execYieldHoldExpiry at h
    split at h <;> cases h
    · exact .ofMeasuring (expiredHold_some ‹_›).1 (Forms.endHold (expiredHold_some ‹_›).2)
    · exact .refl s
  case halfAxle =>
    change execHalfAxle s = _ at h
    unfold execHalfAxle at h
    split at h <;> cases h
    · exact .dispatchedThen fun hm => .ofMeasuring hm (Forms.takeHalfAxle _ _)
    · exact .refl s
  case transfer =>
    change execTransfer s = _ at h
    unfold execTransfer at h
    split at h <;> cases h
    · exact .dispatchedThen fun hm => .ofMeasuring hm (Forms.takeTransfer _ _)
    · exact .refl s
  case yieldClosed =>
    change execYieldClosed s = _ at h
    unfold execYieldClosed at h
    split at h <;> cases h
    · exact .dispatchedThen fun hm => .ofMeasuring hm (Forms.takeYieldClosed _ _)
    · exact .refl s
  case announce =>
    change execAnnounce s = _ at h
    unfold execAnnounce at h
    split at h <;> cases h
    · exact .dispatchedThen fun hm => .ofMeasuring hm (Forms.takeAnnounce _ _)
    · exact .refl s
  case temperature =>
    change execTemperature s = _ at h
    unfold execTemperature at h
    split at h <;> cases h
    · exact .dispatchedThen fun hm => .takeTemperature _ _ hm
    · exact .refl s
  case temperatureSecond code =>
    cases h
    refine .ite _ fun hd => .takeSecond code ?_
    simp only [State.secondIsDue, Bool.and_eq_true] at hd
    exact hd.1
  case eraseReady => cases h; exact .ite _ fun hd => .ofSave s _ rfl (by simp_all)
  case eraseTimeout => cases h; exact .ite _ fun hd => .ofSave s _ rfl (by simp_all [State.phaseOver])
  case programReady => cases h; exact .ite _ fun hd => .ofSave s _ rfl (by simp_all)
  case programTimeout => cases h; exact .ite _ fun hd => .ofSave s _ rfl (by simp_all [State.phaseOver])
  case verify readBack => cases h; exact .ite _ fun hd => .ofSave s _ (verified_bands _ _ _) (by simp_all)
  case lineBusy => cases h; exact .ite _ fun hd => .monitor s _ ((monitorIn_iff _ s).1 hd).2
  case lineIdle => cases h; exact .ite _ fun hd => .enterIdle ((monitorIn_iff _ s).1 hd).2
  case lineBreak => cases h; exact .ite _ fun hd => .enterBreak ((monitorIn_iff _ s).1 hd).2
  case lineFault => cases h; exact .ite _ fun hd => .enterLineFault ((monitorIn_iff _ s).1 hd).2
  case lineFaultEnd => cases h; exact .ite _ fun hd => .enterIdle ((monitorIn_iff _ s).1 hd).2
  case breakLineReleased => cases h; exact .ite _ fun hd => .monitor s _ ((monitorIn_iff _ s).1 hd).2
  case receiveCharacter char edgeAge =>
    cases h
    show Effect s (if _ then s else _)
    split
    · exact .refl s
    · exact .takeCharacter _ _ _ _ _ s
  case transmitAttempt onEdge =>
    cases h
    refine .ite _ fun hd => .beginAttempt ?_
    simp only [State.attemptMayBegin, Bool.and_eq_true, decide_eq_true_eq] at hd
    exact hd.1
  case arbitrationLoss => cases h; exact .ite _ .loseArbitration
  case arbitrationWon => cases h; exact .ite _ .winArbitration
  case bitError => cases h; exact .ite _ .takeBitError
  case breakingEnd => cases h; exact .ite _ .endBreaking
  case frameSentWhole noise => cases h; exact .ite _ (.takeSent noise)

end Sys2Proof.Machine.Laws
end

section
/-!
# What every step keeps

An invariant that does not read the waiting commands, that local time moving on keeps, every effect keeps, and every reset
establishes, is kept by every step (`step_keeps`).
-/
namespace Sys2Proof.Machine.Laws
open Sys2Proof.Machine.Safety

variable {s t : State}

/-! ## The step -/

/-- What an idle step can do: due events enter the queue, or local time moves on. -/
theorem tick_cases (s : State) :
    s.tick = s.advance ∨ ∃ l n, s.tick = { s with pending := l, freeCount := n } := by
  unfold State.tick
  split
  · exact .inl rfl
  · exact .inr ⟨_, s.freeCount, rfl⟩
  · exact .inr ⟨_, _, rfl⟩

/-- An invariant of every step, from what it is of the clock, of an effect and of a reset. -/
theorem step_keeps (P : State → Prop) (hqueue : ∀ s l n, P s → P { s with pending := l, freeCount := n })
    (htime : ∀ s, s.control.held = false → P s → P { s with localTime := later s.localTime 1 })
    (heffect : ∀ s t, Effect s t → P s → P t) (hreset : ∀ s t, AfterReset s t → P t)
    (hs : P s) (h : step s = .next t) : P t := by
  unfold step at h
  split at h
  · rename_i c rest _
    rcases exec_effect h with he | ⟨-, hr⟩
    · exact heffect _ _ he (hqueue s rest s.freeCount hs)
    · exact hreset _ _ hr
  · cases h
    rcases tick_cases s with e | ⟨l, n, e⟩
    · rw [e]
      unfold State.advance
      split
      · exact hs
      · rename_i hheld
        exact htime s (Bool.eq_false_iff.2 hheld) hs
    · rw [e]
      exact hqueue s l n hs

/-! ## The state after a reset -/

theorem AfterReset.capacities (h : AfterReset s t) : FitsCapacities t := by
  unfold FitsCapacities
  rw [h.pairs, h.assembler, h.boundary, h.temp, h.output, h.link, h.params]
  simp [State.reset, PairsFit, VehicleFits, BoundaryFits, LinkFits, ParamsFit, HalfLists.reset, Params.unprepared]

theorem AfterReset.counters_fit (h : AfterReset s t) : CountersFit t := by
  unfold CountersFit
  rw [h.counters]
  simp [State.reset]

theorem AfterReset.corrections (h : AfterReset s t) : CorrectionsFit t := by
  obtain ⟨port, hd⟩ := h.drift
  unfold CorrectionsFit
  rw [h.assembler, hd]
  simp [State.reset, Band.reset, correctionInRange]

theorem AfterReset.temperatures (h : AfterReset s t) : TemperaturesFit t := by
  unfold TemperaturesFit
  rw [h.assembler, h.temp, h.params]
  simp [State.reset, Params.unprepared, plausible]

theorem AfterReset.linkSound (h : AfterReset s t) : LinkSound t := by
  have hn : ¬ ∃ o, t.control.station = .mute o := by rintro ⟨o, ho⟩; rcases h.station with e | ⟨e, -⟩ <;> simp [e] at ho
  unfold LinkSound QueueOrdered TransmitterMatchesQueue BufferInFrame
  rw [h.link]
  simpa [State.reset] using hn

theorem AfterReset.blocks (h : AfterReset s t) : BlocksSound t := by
  obtain ⟨port, hd⟩ := h.drift
  refine ⟨⟨fun _ => ?_, fun c _ => ?_, fun hh => ⟨h.heldStarting hh, h.localTime, by rw [h.link]; rfl, ?_⟩⟩, ?_⟩
  · unfold MeasuringBlocksReset
    rw [hd]
    exact ⟨h.channels, h.pairs, by rw [h.assembler]; rfl, by rw [h.assembler]; rfl, by rw [h.assembler]; rfl,
      by rw [h.assembler], h.boundary, h.temp, rfl, rfl, rfl, rfl, rfl, rfl, rfl, h.output⟩
  · rw [h.channels]
    cases c <;> rfl
  · simp [State.faultLine, h.heldStarting hh, h.link, hd, State.reset]
  · unfold ProbeConsistent
    rw [h.temp]
    simp [State.reset]

/-! ## The statements -/

/-- Settles O6: every effect keeps the capacities, and a reset empties the lists. -/
theorem stepKeepsCapacities : Obligations.StepKeepsCapacities := fun _ _ =>
  step_keeps FitsCapacities (fun _ _ _ => id) (fun _ _ => id) (fun _ _ h => h.capacities) (fun _ _ h => h.capacities)

/-- Settles O7: every effect keeps the three ranges, and a reset begins within them. -/
theorem stepKeepsRanges : Obligations.StepKeepsRanges := fun _ _ hcount hcorr htemp =>
  step_keeps (fun s => CountersFit s ∧ CorrectionsFit s ∧ TemperaturesFit s) (fun _ _ _ => id) (fun _ _ => id)
    (fun _ _ h ⟨hc, hb, ht⟩ => ⟨fun n => (h.counters n (hc n)).2, h.corrections hb, h.temperatures ht⟩)
    (fun _ _ h => ⟨h.counters_fit, h.corrections, h.temperatures⟩) ⟨hcount, hcorr, htemp⟩

/-- Settles O8: every effect keeps the idle blocks and the own probe's standing, a reset begins with them, and local time
moves on in a station alone that the pin does not hold. -/
theorem stepKeepsBlocks : Obligations.StepKeepsBlocks := fun _ _ hidle hprobe =>
  step_keeps BlocksSound (fun _ _ _ => id)
    (fun _ hheld ⟨⟨hn, hc, _⟩, hp⟩ => ⟨⟨hn, hc, fun h => absurd (hheld.symm.trans h) Bool.false_ne_true⟩, hp⟩)
    (fun _ _ h => h.blocks) (fun _ _ h => h.blocks) ⟨hidle, hprobe⟩

/-- Settles O9: every effect keeps the link sound, and a reset begins with an empty one. -/
theorem stepKeepsLink : Obligations.StepKeepsLink := fun _ _ hqueue htransmitter hbuffer =>
  step_keeps LinkSound (fun _ _ _ => id) (fun _ _ => id) (fun _ _ h => h.link) (fun _ _ h => h.linkSound)
    ⟨hqueue, htransmitter, hbuffer⟩

/-- Settles O3: an effect takes no time, and a reset puts local time at 0. -/
theorem commandsLeaveQueueAndTime : Obligations.CommandsLeaveQueueAndTime := by
  intro c s t h
  rcases exec_effect h with he | ⟨hc, hr⟩
  · exact ⟨he.pending, .inl he.localTime⟩
  · exact ⟨hr.pending, .inr ⟨hc, hr.localTime⟩⟩

/-- Settles O4: the moves of an effect, and the two stations a reset leaves. -/
theorem stationStateMovesAsTabled : Obligations.StationStateMovesAsTabled := by
  intro c s t h
  rcases exec_effect h with he | ⟨hc, hr⟩
  · refine ⟨?_, fun _ => he.held, fun _ hn => ?_⟩
    · cases he.moves with
      | stays e => exact .inl e
      | starts b e i => exact .inr (.inr (.inl ⟨b, e, i⟩))
      | halts b e i => exact .inr (.inr (.inr (.inl ⟨b, e, i⟩)))
      | mutesRunning b e => exact .inr (.inr (.inr (.inr (.inl ⟨b, e⟩))))
      | mutesHalted b e => exact .inr (.inr (.inr (.inr (.inr ⟨b, e⟩))))
    · obtain ⟨hp, hn, hr, hi, hv, ha⟩ := he.setup hn
      exact ⟨hp, hn, hr, hi, hv, ha⟩
  · exact ⟨.inr (.inl ⟨hc, hr.station⟩), fun hn => absurd hc hn, fun hn => absurd hc hn⟩

/-- Settles O5: every effect lets each counter stand or rise to its limit. -/
theorem countersRiseUntilReset : Obligations.CountersRiseUntilReset := by
  intro c s t h hn hfit
  rcases exec_effect h with he | ⟨hc, -⟩
  · exact ⟨fun n => (he.counters n (hfit n)).2, fun n => (he.counters n (hfit n)).1⟩
  · exact absurd hc hn

/-- Settles O10: the state after power-up is a state after a reset. -/
theorem resetMeetsInvariants : Obligations.ResetMeetsInvariants := by
  have h := afterReset_reset
  obtain ⟨hidle, hprobe⟩ := h.blocks
  obtain ⟨hqueue, htransmitter, hbuffer⟩ := h.linkSound
  exact ⟨h.capacities, h.counters_fit, h.corrections, h.temperatures, hprobe, hqueue, htransmitter, hbuffer, hidle⟩

/-- Settles O1: the step of a queue that holds a command. -/
theorem stepRunsFrontCommand : Obligations.StepRunsFrontCommand := fun _ _ _ => rfl

/-! ## Resets -/

theorem strapNumber_eq (p : Straps) :
    strapNumber p = 8 * p.station8.toNat + 4 * p.station4.toNat + 2 * p.station2.toNat + p.station1.toNat := by
  simp only [strapNumber, bitsToNat, List.foldl_cons, List.foldl_nil]
  omega

theorem headFrame_of_headIs {f : RxFrame} (h : headIs f s) : s.headFrame = some f := by
  obtain ⟨hst, hq⟩ := h
  unfold State.headFrame State.delivers
  rw [hq]
  cases hs : s.control.station <;> simp_all

theorem headFrame_eq_some_iff {f : RxFrame} : s.headFrame = some f ↔ headIs f s := by
  refine ⟨fun h => ?_, headFrame_of_headIs⟩
  unfold State.headFrame State.delivers at h
  unfold headIs
  cases hs : s.control.station <;> simp_all

theorem addressed_iff (s : State) (target : Nat) :
    s.addressed target = true ↔ target = 0 ∨ target = s.control.number := by
  simp [State.addressed]

/-- The head of the receive queue is a command of this code for this station. -/
theorem commandHere_of_headIs {f : RxFrame} (h : headIs f s) (hk : f.kind = .command) (code : Nat) :
    s.commandHere code = true ↔
      (commandTarget f.payload = 0 ∨ commandTarget f.payload = s.control.number) ∧ commandCode f.payload = code := by
  unfold State.commandHere State.headCommand
  simp [headFrame_of_headIs h, hk, addressed_iff]

/-- Settles O11: the three resets leave `restarted`, and the held pin `heldInReset`. -/
theorem resetsReinitialise : Obligations.ResetsReinitialise := by
  intro p s number rate after
  have hafter (causes : Causes) : s.afterReset p causes = after causes := by
    rw [afterReset_eq, strapNumber_eq]
    rfl
  refine ⟨?powerUp, ?release, ?low, ?short, ?restart⟩
  case powerUp => exact congrArg Host.Outcome.next (hafter _)
  case release =>
    intro low hlow
    show Host.Outcome.next (if low < 100 then s else s.afterReset p { s.control.causes with pin := true }) = _
    rw [if_neg (by omega), hafter]
  case low =>
    intro low hlow
    refine ⟨s.heldInReset, ?_, rfl, rfl, rfl, rfl⟩
    show Host.Outcome.next (if low < 100 then s else s.heldInReset) = _
    rw [if_neg (by omega)]
  case short =>
    intro low release hlow
    exact congrArg Host.Outcome.next (if_pos hlow)
  case restart =>
    intro f hf hk _ htarget hcode
    show Host.Outcome.next (if s.commandHere 2 then s.afterReset p { s.control.causes with command := true } else s) = _
    rw [if_pos ((commandHere_of_headIs hf hk 2).2 ⟨htarget, hcode⟩), hafter]

end Sys2Proof.Machine.Laws
end

section
/-!
# The idle step (notes/assumptions/1, 2, 9, 17)

Each of the station's own events has a test in the model; a lemma says of each test when it holds. The events that are due
stand in the queue once each, in an order that is a rearrangement of the list of the tests.
-/
namespace Sys2Proof.Machine.Laws
open Sys2Proof.Machine.Safety

variable {s : State}

/-! ## The tests of the events -/

theorem sampleInstant_iff (t : LocalTime) : sampleInstant t = true ↔ t.toNat % 2 = 0 := by
  simp [sampleInstant]

theorem reached_iff (now due : LocalTime) : reached now due = true ↔ 0 ≤ (now - due).toInt := by
  simp [reached]

theorem dueReached_iff (now : LocalTime) (due : Option LocalTime) :
    dueReached now due = true ↔ ∃ t, due = some t ∧ 0 ≤ (now - t).toInt := by
  cases due <;> simp [dueReached, reached_iff]

theorem aged_iff (s : State) (x : Pulse) : s.aged x = true ↔
    (s.localTime - x.time).toInt - (s.control.params.maxPulse + 2 : Nat) >
      (s.control.params.spacing * 16384 / 1000 : Nat) := by
  simp [State.aged]

theorem listsOf_eq_get (s : State) (h : Half) : listsOf s h = s.pairs.get h := by cases h <;> rfl

/-- A search at a sample instant of a station that measures finds something. -/
theorem isSome_find_when {α : Type} (p : Bool) (l : List α) (f : α → Bool) :
    (if p = true then l.find? f else none).isSome = true ↔ p = true ∧ ∃ x ∈ l, f x = true := by
  cases p <;> simp [List.find?_isSome]

theorem agedLead_isSome_iff (s : State) (h : Half) : (s.agedLead h).isSome = true ↔
    s.measuringSample = true ∧ ∃ x ∈ (listsOf s h).leads, s.aged x = true := by
  rw [listsOf_eq_get]
  exact isSome_find_when _ _ _

theorem agedOrphan_isSome_iff (s : State) (h : Half) : (s.agedOrphan h).isSome = true ↔
    s.measuringSample = true ∧ ∃ x ∈ (listsOf s h).orphans, s.aged x = true := by
  rw [listsOf_eq_get]
  exact isSome_find_when _ _ _

/-- What a slot holds passes a test at a sample instant of a station that measures. -/
theorem isSome_filter_when {α : Type} (p : Bool) (o : Option α) (f : α → Bool) :
    (if p = true then o.filter f else none).isSome = true ↔ p = true ∧ ∃ x, o = some x ∧ f x = true := by
  cases p <;> cases o <;> simp [Option.filter]

theorem dueHalf_isSome_iff (s : State) (h : Half) : (s.dueHalf h).isSome = true ↔
    s.measuringSample = true ∧ ∃ x, (listsOf s h).slot = some x ∧
      reached s.localTime (x.releaseTime s.control.params) = true := by
  rw [listsOf_eq_get]
  exact isSome_filter_when _ _ _

theorem gapVehicle_isSome_iff (s : State) (k : Slot) : (s.gapVehicle k).isSome = true ↔
    s.measuringSample = true ∧ ∃ v, s.vehicleIn k = some v ∧
      (!v.gapDueMark && reached s.localTime v.gapDue && !s.halfWaitsBefore v.gapDue) = true :=
  isSome_filter_when _ _ _

theorem expiredHold_isSome_iff (s : State) (k : Slot) : (s.expiredHold k).isSome = true ↔
    s.measuringSample = true ∧ ∃ v, s.vehicleIn k = some v ∧
      (v.pairing = .owner && !v.yieldClosed && !v.flags.partnerLost && dueReached s.localTime v.holdDue) = true :=
  isSome_filter_when _ _ _

theorem expiredEdge_isSome_iff (s : State) : s.expiredEdge.isSome = true ↔
    s.measuringSample = true ∧ ∃ e ∈ s.boundary.edges,
      decide (sdiff s.localTime e.joined > s.control.params.edgeWaitTicks) = true :=
  isSome_find_when _ _ _

theorem expiredNotice_isSome_iff (s : State) (side : Half) : (s.expiredNotice side).isSome = true ↔
    s.measuringSample = true ∧ ∃ n ∈ s.boundary.remote.get side,
      decide (sdiff s.localTime n.accepted > s.control.params.edgeWaitTicks) = true :=
  isSome_find_when _ _ _

/-- No half waits with a lead time before `t` (R82). -/
theorem halfWaitsBefore_eq_false_iff (s : State) (t : LocalTime) : s.halfWaitsBefore t = false ↔
    ∀ x, s.pairs.left.slot = some x ∨ s.pairs.right.slot = some x → 0 ≤ (x.leadTime - t).toInt := by
  unfold State.halfWaitsBefore
  cases s.pairs.left.slot <;> cases s.pairs.right.slot <;> simp [or_imp, forall_and]

theorem headDue_iff (s : State) : s.headDue = true ↔ ∃ t ∈ s.output.triggers.head?, 0 ≤ (s.localTime - t).toInt := by
  unfold State.headDue
  cases s.output.triggers <;> simp [reached_iff]

theorem phaseOver_iff (s : State) (phase : StoreState) : s.phaseOver phase = true ↔
    s.drift.store = phase ∧ s.localTime.toNat % 2 = 0 ∧
      ∃ t, s.drift.phaseDue = some t ∧ 0 ≤ (s.localTime - t).toInt := by
  simp [State.phaseOver, sampleInstant_iff, dueReached_iff, and_assoc]

theorem memoryIsLost_iff (s : State) : s.memoryIsLost = true ↔
    s.control.station = .starting ∧ s.control.held = false ∧ s.localTime.toNat % 2 = 0 ∧ 32768 ≤ s.localTime.toNat := by
  simp [State.memoryIsLost, starts_iff, sampleInstant_iff, and_assoc]

theorem loopIsDue_iff (s : State) : s.loopIsDue = true ↔
    s.measuringSample = true ∧ s.control.params.loopFitted = true ∧ s.assembler.loop.count = 3 ∧
      s.assembler.loop.qualified ≠ some s.assembler.loop.level := by
  simp [State.loopIsDue, and_assoc]

/-! ## The dispatch of the head frame -/

theorem mem_addressedCommand (c : Instr) (code : Nat) : c ∈ addressedCommand code ↔
    c = .clearLatch ∧ code = 1 ∨ c = .statusNow ∧ code = 3 ∨ c = .commandCodeUnknown ∧ (code = 0 ∨ 4 ≤ code) := by
  match code with
  | 0 | 1 | 2 | 3 => simp [addressedCommand]
  | n + 4 => simp [addressedCommand]

/-- The kind of a frame that a unit of the station takes, by the command that takes it (R181). -/
def ownedKind : Instr → Option Kind
  | .halfAxle => some .halfAxle
  | .transfer => some .transfer
  | .yieldClosed => some .yieldClosed
  | .temperature => some .temperature
  | .announce => some .announce
  | _ => none

theorem mem_ownerCommand (c : Instr) (k : Kind) (source : Nat) : c ∈ ownerCommand k source ↔
    c = .vehicleStatusDropped ∧ (k = .vehicle ∨ k = .status ∨ source = 0 ∧ k ≠ .command) ∨
      ownedKind c = some k ∧ source ≠ 0 := by
  unfold ownerCommand
  cases k <;> by_cases h : source = 0 <;> cases c <;> simp [h, ownedKind]

theorem mem_dueDispatch (c : Instr) : c ∈ s.dueDispatch ↔ ∃ f, headIs f s ∧
    (f.kind = .command ∧ (s.addressed (commandTarget f.payload) = true ∧ c ∈ addressedCommand (commandCode f.payload) ∨
        s.addressed (commandTarget f.payload) = false ∧ c = .commandNotAddressed) ∨
      f.kind ≠ .command ∧ c ∈ ownerCommand f.kind f.source) := by
  unfold State.dueDispatch
  cases hf : s.headFrame with
  | none =>
    have hn : ∀ f, ¬ headIs f s := fun f h => by rw [headFrame_of_headIs h] at hf; cases hf
    simp [hn]
  | some f =>
    have hone : ∀ g, headIs g s ↔ g = f := fun g => by
      rw [← headFrame_eq_some_iff, hf]
      simp [eq_comm]
    simp only [hone, exists_eq_left]
    by_cases hk : f.kind = .command
    · cases ha : s.addressed (commandTarget f.payload) <;> simp [hk]
    · simp [hk]

/-! ## The order of the events -/

theorem permuteBy_perm {α : Type} (fuel k : Nat) (l : List α) : (permuteBy fuel k l).Perm l := by
  induction fuel generalizing k l with
  | zero => cases l <;> exact .refl _
  | succ fuel ih =>
    match l with
    | [] => exact .refl _
    | [a] => exact .refl _
    | a :: b :: l =>
      unfold permuteBy
      simp only
      split
      · exact .refl _
      · rename_i x hx
        obtain ⟨hi, rfl⟩ := List.getElem?_eq_some_iff.1 hx
        exact ((ih _ _).cons _).trans (List.getElem_cons_eraseIdx_perm hi)

theorem mem_whenDue (due : Bool) (c d : Instr) : c ∈ whenDue due d ↔ c = d ∧ due = true := by
  cases due <;> simp [whenDue]

theorem eq_half_iff {h : Half} {q : Half → Prop} : h = .left ∧ q .left ∨ h = .right ∧ q .right ↔ q h := by
  cases h <;> simp

theorem eq_slot_iff {k : Slot} {q : Slot → Prop} : k = .openSlot ∧ q .openSlot ∨ k = .closingSlot ∧ q .closingSlot ↔ q k := by
  cases k <;> simp

/-- A frame of a kind that a unit takes is no COMMAND. -/
theorem taken_iff {k : Kind} (hk : k ≠ .command) :
    (∃ f, headIs f s ∧ f.kind ≠ .command ∧ k = f.kind ∧ f.source ≠ 0) ↔ ∃ f, headIs f s ∧ f.kind = k ∧ f.source ≠ 0 :=
  exists_congr fun _ => and_congr_right fun _ =>
    ⟨fun ⟨_, e, h⟩ => ⟨e.symm, h⟩, fun ⟨e, h⟩ => ⟨fun hc => hk (e.symm.trans hc), e.symm, h⟩⟩

/-- Settles O2: each test by its lemma; with due events the queue is a rearrangement of them. -/
theorem idleStepQueuesDueOrAdvances : Obligations.IdleStepQueuesDueOrAdvances := by
  intro s p passed even aged waited closing standsIn remote measures mine told sent due
  have hsample : s.measuringSample = true ↔ measures ∧ even := by rw [measuringSample_iff, measuring_iff]
  have hmine (f : RxFrame) : s.addressed (commandTarget f.payload) = true ↔ mine f := addressed_iff _ _
  have hmine' (f : RxFrame) : s.addressed (commandTarget f.payload) = false ↔ ¬ mine f := by
    rw [← hmine, Bool.not_eq_true]
  refine ⟨fun c => ?_, fun hp hd => ?_, fun hp hd => ?_⟩
  · simp only [State.dueCommands, State.dueControl, State.dueAssembly, State.dueBoundary, List.mem_append, mem_whenDue,
      mem_dueDispatch, mem_addressedCommand, mem_ownerCommand, hmine, hmine']
    cases c
    all_goals simp only [ownedKind, reduceCtorEq, and_true, false_and, and_false, or_false, false_or, true_and, exists_false,
      Option.some.injEq, Instr.leadExpiryByAge.injEq, Instr.orphanExpiryByAge.injEq, Instr.halfRelease.injEq,
      Instr.gapTimer.injEq, Instr.remoteNoticeExpiry.injEq, Instr.yieldHoldExpiry.injEq, Instr.transmitAttempt.injEq,
      due]
    case noMemory => exact memoryIsLost_iff s
    case statusDue => exact dueReached_iff _ _
    case eraseTimeout => exact phaseOver_iff s _
    case programTimeout => exact phaseOver_iff s _
    case transmitAttempt => simp [State.attemptMayBegin]
    case leadExpiryByAge h =>
      rw [eq_half_iff (q := fun h => (s.agedLead h).isSome = true), agedLead_isSome_iff, hsample, and_assoc]
      simp only [aged_iff]
      rfl
    case orphanExpiryByAge h =>
      rw [eq_half_iff (q := fun h => (s.agedOrphan h).isSome = true), agedOrphan_isSome_iff, hsample, and_assoc]
      simp only [aged_iff]
      rfl
    case halfRelease h =>
      rw [eq_half_iff (q := fun h => (s.dueHalf h).isSome = true), dueHalf_isSome_iff, hsample, and_assoc]
      simp only [reached_iff]
      rfl
    case loopTransition => rw [loopIsDue_iff, hsample, and_assoc]
    case gapTimer k =>
      rw [eq_slot_iff (q := fun k => (s.gapVehicle k).isSome = true), gapVehicle_isSome_iff, hsample, and_assoc]
      simp only [Bool.and_eq_true, Bool.not_eq_true', reached_iff, halfWaitsBefore_eq_false_iff, and_assoc]
      cases k <;> rfl
    case yieldHoldExpiry k =>
      rw [eq_slot_iff (q := fun k => (s.expiredHold k).isSome = true), expiredHold_isSome_iff, hsample, and_assoc]
      simp only [Bool.and_eq_true, Bool.not_eq_true', dueReached_iff, decide_eq_true_eq, and_assoc, exists_and_left]
      cases k <;> rfl
    case edgeWaitExpiry =>
      rw [expiredEdge_isSome_iff, hsample, and_assoc]
      simp only [decide_eq_true_eq]
      rfl
    case remoteNoticeExpiry h =>
      rw [eq_half_iff (q := fun h => (s.expiredNotice h).isSome = true), expiredNotice_isSome_iff, hsample, and_assoc]
      simp only [decide_eq_true_eq]
      cases h <;> rfl
    case triggerDue => simp only [State.triggerIsDue, Bool.and_eq_true, decide_eq_true_eq, headDue_iff, passed]
    case pulseEnd => simp only [State.pulseEndIsDue, Bool.and_eq_true, decide_eq_true_eq, dueReached_iff, passed]
    case gapEnd => simp only [State.gapEndIsDue, Bool.and_eq_true, decide_eq_true_eq, dueReached_iff, passed]
    case vehicleStatusDropped =>
      refine exists_congr fun f => and_congr_right fun _ => ⟨fun h => h.2, fun h => ⟨fun hk => ?_, h⟩⟩
      simp [hk] at h
    case commandCodeUnknown =>
      exact ⟨fun ⟨f, hf, hk, hm, hc⟩ => ⟨_, ⟨f, hf, hk, hm, rfl⟩, hc⟩,
        fun ⟨_, ⟨f, hf, hk, hm, e⟩, hc⟩ => ⟨f, hf, hk, hm, e ▸ hc⟩⟩
    case clearLatch => rfl
    case statusNow => rfl
    all_goals exact taken_iff (by decide)
  · have htick : step s = .next s.advance := by
      unfold step State.tick
      rw [hp, hd]
    rw [htick]
    unfold State.advance
    cases s.control.held <;> rfl
  · unfold step
    rw [hp]
    unfold State.tick
    match hc : s.dueCommands with
    | [] => exact absurd hc hd
    | [c] => exact ⟨[c], s.freeCount, .refl _, rfl⟩
    | c :: d :: rest => exact ⟨_, _, permuteBy_perm _ _ _, rfl⟩

end Sys2Proof.Machine.Laws
end

section
/-!
# The start, STATUS notices and commands (chapter 10)

A frame that a still transmitter takes stands alone in its queue (`produce_alone`); with it the start, STATUS_DUE and
STATUS-NOW are read off their definitions. `walkEntries_eq_some_iff` says what the walk through the class entries finds.
-/
namespace Sys2Proof.Machine.Laws
open Sys2Proof.Machine.Safety

variable {s t : State} {b : Body}

/-! ## A frame in an empty queue -/

theorem queueTake_nil (b : Body) : queueTake b [] = (queued b, false) := by
  unfold queueTake
  split <;> rfl

/-- A station that transmits and whose transmitter is still holds a new frame alone (R182, R187). -/
theorem enqueue_alone (hq : s.link.transmitQueue = []) (ht : s.link.transmitter = .idle) :
    s.enqueue b = { s with link := { s.link with transmitQueue := queued b, transmitter := .waitIdle } } := by
  unfold State.enqueue
  rw [hq, ht, queueTake_nil]
  rfl

theorem produce_of_transmits (hst : s.control.station = .running ∨ s.control.station = .halted) :
    s.produce b = s.enqueue b := by
  unfold State.produce
  rcases hst with h | h <;> rw [h]

theorem produce_of_mute {o : Origin} (hst : s.control.station = .mute o) : s.produce b = s := by
  unfold State.produce
  rw [hst]

theorem produce_alone (hst : s.control.station = .running ∨ s.control.station = .halted)
    (hq : s.link.transmitQueue = []) (ht : s.link.transmitter = .idle) :
    s.produce b = { s with link := { s.link with transmitQueue := queued b, transmitter := .waitIdle } } :=
  (produce_of_transmits hst).trans (enqueue_alone hq ht)

/-! ## The start -/

theorem answered_iff (s : State) :
    s.answered = true ↔ s.localTime.toNat % 2 = 0 ∧ 0 < (s.localTime - s.drift.phaseAt).toInt := by
  simp [State.answered, sampleInstant_iff]

/-- MEMORY_READY finds the STARTING flow waiting for it (R160). -/
theorem exec_memoryReady {image correction : List Byte} (hst : s.control.station = .starting)
    (hh : s.control.held = false) (heven : s.localTime.toNat % 2 = 0)
    (hread : 0 < (s.localTime - s.drift.phaseAt).toInt) (hlimit : s.localTime.toNat ≤ 32768) :
    exec (.memoryReady image correction) s = .next (s.startFlow image correction) := by
  refine congrArg Host.Outcome.next (if_pos ?_)
  rw [(starts_iff s).2 ⟨hst, hh⟩, (answered_iff s).2 ⟨heven, hread⟩]
  simpa using hlimit

/-- The corrections of a good record (R141). -/
theorem loadCorrections_good {bytes : List Byte} (hg : goodCorrection bytes = true) (d : Drift) :
    (State.loadCorrections bytes d).defaulted = false ∧ (State.loadCorrections bytes d).saveCount = u16At bytes 32 ∧
      ∀ b : Fin 8, (State.loadCorrections bytes d).bands[b] =
        { correction := max 3686 (min 4506 (u16At bytes (2 * b.val))), count := 0, sum := 0,
          updates := u16At bytes (16 + 2 * b.val) } := by
  unfold State.loadCorrections
  rw [if_pos hg]
  refine ⟨rfl, rfl, fun b => ?_⟩
  simp only [State.loadedBands, Fin.getElem_fin, Vector.getElem_ofFn, clampNat_eq (show 3686 ≤ 4506 by omega),
    readCorrection]
  simp

/-- The corrections of any other record (R142). -/
theorem loadCorrections_bad {bytes : List Byte} (hg : goodCorrection bytes = false) (d : Drift) :
    (State.loadCorrections bytes d).defaulted = true ∧ (State.loadCorrections bytes d).saveCount = 0 ∧
      ∀ b : Fin 8, (State.loadCorrections bytes d).bands[b] =
        { correction := 4096, count := 0, sum := 0, updates := 0 } := by
  unfold State.loadCorrections
  rw [if_neg (by simp [hg])]
  exact ⟨rfl, rfl, fun b => by simp [Band.reset]⟩

/-- Settles O12: the start leaves `runningState`, and its announcement stands alone in the queue. -/
theorem goodImageEntersRunning : Obligations.GoodImageEntersRunning := by
  intro image correction s hst hh heven hread hlimit himage hlen hq ht r p
  have htake : correction.take correctionSize = correction := List.take_of_length_le (by rw [hlen, correctionSize])
  refine ⟨_, exec_memoryReady hst hh heven hread hlimit, ?_⟩
  rw [startFlow_good himage, produce_alone (s := runningState image correction s) (.inl rfl) hq ht]
  refine ⟨rfl, fun hg => ?good, fun hg => ?bad, rfl, rfl, rfl, rfl, rfl, rfl, rfl, rfl⟩
  case good =>
    have h : ∀ bytes, bytes = correction → (State.loadCorrections bytes s.drift).defaulted = false ∧
        (State.loadCorrections bytes s.drift).saveCount = u16At correction 32 ∧
        ∀ b : Fin 8, (State.loadCorrections bytes s.drift).bands[b] =
          { correction := max 3686 (min 4506 (u16At correction (2 * b.val))), count := 0, sum := 0,
            updates := u16At correction (16 + 2 * b.val) } :=
      fun bytes e => e ▸ loadCorrections_good (e ▸ hg) s.drift
    exact h _ htake
  case bad =>
    have h := loadCorrections_bad hg s.drift
    rw [← htake] at h
    exact h

/-- A numbered station with a still transmitter that enters HALTED announces its image state (R165, R168). -/
theorem enterHalted_eq (hn : s.control.number ≠ 0) (hq : s.link.transmitQueue = []) (ht : s.link.transmitter = .idle)
    {i : ImageState} (hi : i ≠ .good) :
    s.enterHalted i = { s with
      control := { s.control with
        station := .halted, image := i, statusDue := some (s.localTime + BitVec.ofNat 32 (16384 * 60)) }
      link := { s.link with
        transmitQueue := queued (.announce 0 0 0 i false false s.control.causes 0), transmitter := .waitIdle } } := by
  have hbody : ({ s with control := { s.control with station := .halted, image := i } } : State).announceBody =
      .announce 0 0 0 i false false s.control.causes 0 := if_neg hi
  unfold State.enterHalted
  simp only
  rw [if_neg hn, hbody, produce_alone (s := { s with control := { s.control with station := .halted, image := i } })
    (.inr rfl) hq ht]
  rfl

/-- The walk through `n` class entries by their places: every count byte lies below the length (R161). -/
theorem walkEntries_eq_some_iff {img : List Byte} {len : Nat} (n m : Nat) (place : Nat → Nat)
    (hstep : ∀ k, place (k + 1) = place k + 17 + 5 * byteAt img (place k + 16)) :
    walkEntries img len n (place 0) = some m ↔ (∀ k < n, place k + 16 < len) ∧ place n = m := by
  induction n generalizing place with
  | zero => simp [walkEntries]
  | succ n ih =>
    have hrest := ih (fun k => place (k + 1)) (fun k => hstep (k + 1))
    simp only [Nat.zero_add] at hrest
    unfold walkEntries
    rw [← hstep 0, Nat.zero_add]
    split
    · refine iff_of_false (by simp) fun ⟨hk, _⟩ => ?_
      have := hk 0 (Nat.succ_pos n)
      omega
    · rw [hrest, Nat.forall_lt_succ_left]
      exact and_congr_left' (iff_and_self.2 fun _ => by omega)

/-- The length check, the count of class entries and their places as written (R161). -/
theorem lengthGood_iff (img : List Byte) (place : Nat → Nat) (h0 : place 0 = classCountAt img + 1)
    (hstep : ∀ k, place (k + 1) = place k + 17 + 5 * byteAt img (place k + 16)) :
    lengthGood img = true ↔ 99 ≤ imageLength img ∧ imageLength img ≤ 4094 ∧ classCountAt img < imageLength img ∧
      (∀ k < byteAt img (classCountAt img), place k + 16 < imageLength img) ∧
      place (byteAt img (classCountAt img)) = imageLength img := by
  have hwalk : imageWalk img = some (imageLength img) ↔ classCountAt img < imageLength img ∧
      (∀ k < byteAt img (classCountAt img), place k + 16 < imageLength img) ∧
      place (byteAt img (classCountAt img)) = imageLength img := by
    unfold imageWalk
    rw [← h0]
    split
    · exact iff_of_false (by simp) fun h => by omega
    · rw [walkEntries_eq_some_iff _ _ place hstep]
      exact (and_iff_right (by omega)).symm
  unfold lengthGood
  simp only [Bool.and_eq_true, decide_eq_true_eq, beq_iff_eq, hwalk, and_assoc]
  rfl

theorem checkGood_iff (img : List Byte) : checkGood img = true ↔
    byteSum (img.take (imageLength img)) % 65536 = u16At img (imageLength img) := by
  simp [checkGood]

/-- Settles O13: a lost memory and a failed check both lead to `enterHalted`, and the checks go in their order. -/
theorem failedStartHalts : Obligations.FailedStartHalts := by
  refine ⟨fun s hst hh hn heven hq ht => ⟨fun hlost => ?lost, fun image correction hread hlimit hbad => ?failed⟩, ?checks⟩
  case lost =>
    refine congrArg Host.Outcome.next ((if_pos ((memoryIsLost_iff s).2 ⟨hst, hh, heven, hlost⟩)).trans ?_)
    exact enterHalted_eq hn hq ht (by simp)
  case failed =>
    refine ⟨{ s.drift with port := [.readData 0 (imageLength image + 2)] }, ?_, rfl⟩
    rw [exec_memoryReady hst hh heven hread hlimit, startFlow_bad hbad]
    exact congrArg Host.Outcome.next (enterHalted_eq
      (s := { s with drift := { s.drift with port := [.readData 0 (imageLength image + 2)] } }) hn hq ht hbad)
  case checks =>
    intro image place length countAt h0 hstep lengthHolds sumHolds
    have hlength : lengthGood image = true ↔ lengthHolds := lengthGood_iff image place h0 hstep
    have hsum : checkGood image = true ↔ sumHolds := checkGood_iff image
    have hlength' : lengthGood image = false ↔ ¬ lengthHolds := by rw [← hlength, Bool.not_eq_true]
    have hsum' : checkGood image = false ↔ ¬ sumHolds := by rw [← hsum, Bool.not_eq_true]
    unfold checkImage
    refine ⟨fun h => if_pos h, fun h hl => ?_, fun h hl hs => ?_, fun h hl hs => ?_⟩ <;> rw [if_neg (not_not.2 h)]
    · exact if_pos (hlength'.2 hl)
    · rw [if_neg (by simp [hlength.2 hl])]
      exact if_pos (hsum'.2 hs)
    · rw [if_neg (by simp [hlength.2 hl]), if_neg (by simp [hsum.2 hs])]

/-! ## STATUS and commands -/

theorem statusIsDue_iff (s : State) :
    s.statusIsDue = true ↔ ∃ t, s.control.statusDue = some t ∧ 0 ≤ (s.localTime - t).toInt :=
  dueReached_iff _ _

/-- Settles O16: a STATUS stands alone in the queue of a station that transmits, and MUTE forms none. -/
theorem statusFallsDue : Obligations.StatusFallsDue := by
  intro s due hdue hpassed status moved
  have hexec : exec .statusDue s = .next s.takeStatus :=
    congrArg Host.Outcome.next (if_pos ((statusIsDue_iff s).2 ⟨due, hdue, hpassed⟩))
  have hticks (seconds : Nat) (h : (if s.measuring then s.control.params.statusPeriod else 60) = seconds) :
      s.control.statusDue.map (fun t => later t s.statusTicks) = some (due + BitVec.ofNat 32 (16384 * seconds)) := by
    rw [hdue, ← h]
    rfl
  have hmeasuring (h : s.control.station = .running ∨ s.control.station = .mute .fromRunning) :
      (if s.measuring then s.control.params.statusPeriod else 60) = s.control.params.statusPeriod :=
    if_pos ((measuring_iff s).2 h)
  have hidle (h : s.control.station = .halted ∨ s.control.station = .mute .fromHalted) :
      (if s.measuring then s.control.params.statusPeriod else 60) = 60 := by
    refine if_neg fun hm => ?_
    rcases h with h | h <;> simp [measuring_iff, h] at hm
  refine ⟨fun seconds hsec hq ht => ?_, fun hst => ?_, fun hst => ?_⟩ <;> rw [hexec] <;> unfold State.takeStatus
  · have hst : s.control.station = .running ∨ s.control.station = .halted := hsec.imp And.left And.left
    have hs := hticks seconds (by
      rcases hsec with ⟨h, e⟩ | ⟨h, e⟩
      · exact e ▸ hmeasuring (.inl h)
      · exact e ▸ hidle (.inl h))
    simp only [produce_alone hst hq ht, hs]
    rfl
  · simp only [produce_of_mute hst, hticks _ (hmeasuring (.inr hst))]
    rfl
  · simp only [produce_of_mute hst, hticks _ (hidle (.inr hst))]
    rfl

theorem headOf_of_headIs {f : RxFrame} (h : headIs f s) (hn : f.source ≠ 0) : s.headOf f.kind = some f := by
  unfold State.headOf
  rw [headFrame_of_headIs h]
  simp [hn]

theorem headCommand_of_headIs {f : RxFrame} (h : headIs f s) (hk : f.kind = .command) :
    s.headCommand = some f.payload := by
  unfold State.headCommand
  rw [headFrame_of_headIs h]
  simp [hk]

theorem headUnowned_of_headIs {f : RxFrame} (h : headIs f s) :
    s.headUnowned = true ↔ f.kind = .vehicle ∨ f.kind = .status ∨ f.source = 0 ∧ f.kind ≠ .command := by
  unfold State.headUnowned
  rw [headFrame_of_headIs h]
  simp [or_assoc]

/-- Settles O17: each frame is the head that its command's test looks for. -/
theorem commandsAndUnusedFrames : Obligations.CommandsAndUnusedFrames := by
  intro f s hf target code mine left
  have hhere (h : mine) (n : Nat) (hc : code = n) : s.commandHere n = true := (commandHere_of_headIs hf h.1 n).2 ⟨h.2, hc⟩
  refine ⟨fun hm hc => ?clearLatch, fun hm hc hst hq ht => ?statusNow, fun hm hc hst => ?statusElse, fun hm hc => ?unknown,
    fun hk h0 hn => ?notAddressed, fun hk => ?unowned, fun hst hn => ?idle⟩
  case clearLatch =>
    refine congrArg Host.Outcome.next ((if_pos (hhere hm 1 hc)).trans ?_)
    have hlatch : (s.dispatched.measuring && decide (s.dispatched.control.params.overloadMode = .latch)) = true ↔
        (s.control.station = .running ∨ s.control.station = .mute .fromRunning) ∧
          s.control.params.overloadMode = .latch := by
      rw [Bool.and_eq_true, measuring_iff, decide_eq_true_eq]
      rfl
    unfold State.clearOverload
    by_cases h : (s.control.station = .running ∨ s.control.station = .mute .fromRunning) ∧
        s.control.params.overloadMode = .latch
    · rw [if_pos (hlatch.2 h), if_pos h]
      rfl
    · rw [if_neg (mt hlatch.1 h), if_neg h]
      rfl
  case statusNow =>
    refine congrArg Host.Outcome.next ((if_pos (hhere hm 3 hc)).trans ((if_pos hst).trans ?_))
    rw [produce_alone (s := s.dispatched) (.inl hst) hq ht]
    unfold State.statusBody
    simp [hst]
  case statusElse => exact congrArg Host.Outcome.next ((if_pos (hhere hm 3 hc)).trans (if_neg hst))
  case unknown =>
    refine congrArg Host.Outcome.next ((if_pos ?_).trans rfl)
    rw [headCommand_of_headIs hf hm.1, Option.any_some, (addressed_iff s target).2 hm.2]
    simp only [Bool.true_and, Bool.or_eq_true, decide_eq_true_eq]
    omega
  case notAddressed =>
    refine congrArg Host.Outcome.next (if_pos ?_)
    rw [headCommand_of_headIs hf hk, Option.any_some, Bool.not_eq_true', ← Bool.not_eq_true, addressed_iff]
    exact not_or.2 ⟨h0, hn⟩
  case unowned => exact congrArg Host.Outcome.next (if_pos ((headUnowned_of_headIs hf).2 hk))
  case idle =>
    have hm : s.measuring = false := by
      rw [← Bool.not_eq_true, measuring_iff]
      rcases hst with h | h <;> simp [h]
    have hhead (k : Kind) (hk : f.kind = k) : s.headOf k = some f := hk ▸ headOf_of_headIs hf hn
    refine ⟨fun hk => ?_, fun hk => ?_, fun hk => ?_, fun hk => ?_, fun hk => ?_⟩ <;> have hk := hhead _ hk
    · show execHalfAxle s = _
      simp [execHalfAxle, hk, hm, left, State.dispatched, withoutHead]
    · show execTransfer s = _
      simp [execTransfer, hk, hm, left, State.dispatched, withoutHead]
    · show execYieldClosed s = _
      simp [execYieldClosed, hk, hm, left, State.dispatched, withoutHead]
    · show execAnnounce s = _
      simp [execAnnounce, hk, hm, left, State.dispatched, withoutHead]
    · show execTemperature s = _
      simp [execTemperature, hk, hm, left, State.dispatched, withoutHead]

end Sys2Proof.Machine.Laws
end

section
/-!
# The prepared image (R44, R114, R115, R130, R162)

A prepared number is a clamp, and it is adjusted exactly where it differs from its field. The two tables are read off the
walk through their entries: `prepareEntries_eq_map` gives every class entry its place.
-/
namespace Sys2Proof.Machine.Laws
open Sys2Proof.Machine.Safety

/-! ## Prepared fields -/

theorem clampNat_zero (hi x : Nat) : clampNat 0 hi x = min hi x := by
  rw [clampNat_eq (Nat.zero_le hi), Nat.zero_max]

@[simp] theorem prepareNat_adjusted {lo hi raw : Nat} :
    (prepareNat lo hi raw).adjusted = false ↔ (prepareNat lo hi raw).value = raw := by simp [prepareNat]

@[simp] theorem prepareInt_adjusted {lo hi raw : Int} :
    (prepareInt lo hi raw).adjusted = false ↔ (prepareInt lo hi raw).value = raw := by simp [prepareInt]

/-- A neighbour that names the station's own number is 0 (R162). -/
theorem prepareNeighbour_value (own raw : Nat) :
    (prepareNeighbour own raw).value = if min 15 raw = own then 0 else min 15 raw := by
  unfold prepareNeighbour
  simp only [prepareNat, clampNat_zero, Bool.and_eq_true, bne_iff_ne, beq_iff_eq]
  split <;> split <;> grind

@[simp] theorem prepareNeighbour_adjusted {own raw : Nat} :
    (prepareNeighbour own raw).adjusted = false ↔ (prepareNeighbour own raw).value = raw := by
  unfold prepareNeighbour
  simp only [Bool.and_eq_true, bne_iff_ne, beq_iff_eq]
  split
  next h =>
    refine iff_of_false (by simp) fun e => h.1 ?_
    rw [show raw = 0 from e.symm]
    rfl
  next => exact prepareNat_adjusted

@[simp] theorem preparePair_adjusted {a b : Prepared Nat} :
    (preparePair a b).adjusted = false ↔ a.adjusted = false ∧ b.adjusted = false := Bool.or_eq_false_iff

@[simp] theorem prepareMode_adjusted (raw : Nat) : (prepareMode raw).adjusted = false ↔ raw ≤ 2 := by
  unfold prepareMode
  split <;> grind

theorem prepareMode_value (raw : Nat) : (prepareMode raw).value = match raw with
    | 1 => .follow
    | 2 => .latch
    | _ => .off := by
  unfold prepareMode
  split <;> grind

@[simp] theorem prepareSamples_adjusted (raw : Nat) :
    (prepareSamples raw).adjusted = false ↔ (prepareSamples raw).value = raw := by simp [prepareSamples]

/-- M by its range: below 16 as given, from 16 on a power of two, 256 at most (R130). -/
theorem prepareSamples_value (M : Nat) : (16 ≤ (prepareSamples M).value ↔ 16 ≤ M) ∧
    (M < 16 → (prepareSamples M).value = M) ∧ (256 ≤ M → (prepareSamples M).value = 256) ∧
    ∀ e, 4 ≤ e → e ≤ 7 → 2 ^ e ≤ M → M < 2 ^ (e + 1) → (prepareSamples M).value = 2 ^ e := by
  unfold prepareSamples
  refine ⟨by grind, fun h => if_pos h, fun h => by grind, fun e h4 h7 hlo hhi => ?_⟩
  have he : e = 4 ∨ e = 5 ∨ e = 6 ∨ e = 7 := by omega
  rcases he with rfl | rfl | rfl | rfl <;> grind

/-- Settles O14: each field is prepared alone, and the mark is the disjunction of their marks. -/
theorem parametersAreClamped : Obligations.ParametersAreClamped := by
  intro own image r p clamp signed beside b u w M
  have nat {lo hi : Nat} (raw : Nat) (h : lo ≤ hi) : (prepareNat lo hi raw).value = clamp lo hi raw := clampNat_eq h raw
  have upTo (hi raw : Nat) : (prepareNat 0 hi raw).value = min hi raw := clampNat_zero hi raw
  have int (raw : Int) : (prepareInt (-400) 800 raw).value = signed raw := clampInt_eq (by omega) raw
  have next (raw : Nat) : (prepareNeighbour own raw).value = beside raw := prepareNeighbour_value own raw
  obtain ⟨sixteen, small, large, power⟩ := prepareSamples_value M
  refine ⟨nat _ (by omega), ?neighbours, nat _ (by omega), rfl, ?thresholds, nat _ (by omega), upTo _ _, nat _ (by omega),
    ?loop, ?probe, rfl, rfl, upTo _ _, nat _ (by omega), nat _ (by omega), nat _ (by omega), nat _ (by omega),
    nat _ (by omega), int _, nat _ (by omega), int _, nat _ (by omega), nat _ (by omega), nat _ (by omega),
    nat _ (by omega), upTo _ _, nat _ (by omega), nat _ (by omega), nat _ (by omega), nat _ (by omega), upTo _ _,
    nat _ (by omega), upTo _ _, nat _ (by omega), nat _ (by omega), ?refSpeed, ?refGross, upTo _ _, nat _ (by omega),
    nat _ (by omega), prepareMode_value _, nat _ (by omega), ?tracking, small, large, power, ?adjusted⟩
  case neighbours => exact congrArg₂ PerHalf.mk (next _) (next _)
  case thresholds =>
    show PerChannel.mk _ _ _ _ = _
    rw [upTo, upTo, upTo, upTo]
  case loop => exact bne_iff_ne
  case probe => simp [p, r, prepareImage, yesNo, b, u]
  case refSpeed => exact congrArg₂ Prod.mk (nat _ (by omega)) (nat _ (by omega))
  case refGross => exact congrArg₂ Prod.mk (upTo _ _) (upTo _ _)
  case tracking =>
    show (_ != 0 && decide (16 ≤ (prepareSamples M).value)) = true ↔ _
    rw [Bool.and_eq_true, bne_iff_ne, decide_eq_true_eq, sixteen, upTo]
    refine and_congr_left' ?_
    show min 63 (byteAt image 73) ≠ 0 ↔ byteAt image 73 ≠ 0
    omega
  case adjusted =>
    simp only [p, r, prepareImage, Bool.or_eq_false_iff, and_assoc, prepareNat_adjusted, prepareInt_adjusted,
      prepareNeighbour_adjusted, preparePair_adjusted, prepareMode_adjusted, prepareSamples_adjusted,
      decide_eq_false_iff_not, not_le, not_lt, PerHalf.mk.injEq, PerChannel.mk.injEq]
    simp only [preparePair, Prod.mk.injEq, and_assoc]
    rfl

/-! ## The curve -/

/-- The points after the first, as far as their temperatures rise (R44). -/
theorem cutAfter_range (m : Nat) (point : Nat → CurvePoint) : ∃ n ≤ m,
    cutAfter (point 0) ((List.range m).map (point ∘ Nat.succ)) = (List.range n).map (point ∘ Nat.succ) ∧
      (∀ i < n, (point i).temp < (point (i + 1)).temp) ∧ (n < m → (point (n + 1)).temp ≤ (point n).temp) := by
  induction m generalizing point with
  | zero => exact ⟨0, le_refl 0, rfl, by simp, by simp⟩
  | succ m ih =>
    by_cases hrise : (point 0).temp < (point 1).temp
    · obtain ⟨n, hn, hcut, hrising, hstop⟩ := ih (point ∘ Nat.succ)
      refine ⟨n + 1, by omega, ?_, fun i hi => ?_, fun h => hstop (by omega)⟩
      · rw [List.range_succ_eq_map, List.range_succ_eq_map, List.map_cons, List.map_cons, List.map_map, List.map_map]
        unfold cutAfter
        exact (if_pos hrise).trans (congrArg _ hcut)
      · cases i with
        | zero => exact hrise
        | succ i => exact hrising i (by omega)
    · refine ⟨0, by omega, ?_, by simp, fun _ => not_lt.1 hrise⟩
      rw [List.range_succ_eq_map, List.map_cons]
      unfold cutAfter
      exact if_neg hrise

theorem cutCurve_range (m : Nat) (point : Nat → CurvePoint) : ∃ n ≤ m,
    cutCurve ((List.range m).map point) = (List.range n).map point ∧
      (∀ i, i + 1 < n → (point i).temp < (point (i + 1)).temp) ∧
      (n < m → 0 < n ∧ (point n).temp ≤ (point (n - 1)).temp) := by
  cases m with
  | zero => exact ⟨0, le_refl 0, rfl, by simp, by simp⟩
  | succ m =>
    obtain ⟨n, hn, hcut, hrising, hstop⟩ := cutAfter_range m point
    refine ⟨n + 1, by omega, ?_, fun i hi => hrising i (by omega), fun h => ⟨by omega, hstop (by omega)⟩⟩
    rw [List.range_succ_eq_map, List.range_succ_eq_map, List.map_cons, List.map_cons, List.map_map, List.map_map]
    exact congrArg _ hcut

/-- The point of the image at one place of the curve, clamped (R44). -/
def pointAt (image : List Byte) (i : Nat) : CurvePoint :=
  { temp := max (-400) (min 800 (s16At image (99 + 4 * i)))
    factor := max 8192 (min 32767 (u16At image (101 + 4 * i))) }

theorem prepareCurve_value (image : List Byte) :
    (prepareCurve image).value = cutCurve ((List.range (min 8 (byteAt image 98))).map (pointAt image)) := by
  unfold prepareCurve
  simp only [prepareNat, prepareInt, clampNat_zero, List.map_map]
  refine congrArg cutCurve (List.map_congr_left fun i _ => ?_)
  simp only [Function.comp, clampNat_eq (show 8192 ≤ 32767 by omega), clampInt_eq (show (-400 : Int) ≤ 800 by omega)]
  rfl

theorem prepareCurve_adjusted (image : List Byte) : (prepareCurve image).adjusted = false ↔
    byteAt image 98 ≤ 8 ∧ (prepareCurve image).value.length = byteAt image 98 ∧
      ∀ i < byteAt image 98, (pointAt image i).temp = s16At image (99 + 4 * i) ∧
        (pointAt image i).factor = u16At image (101 + 4 * i) := by
  have hmark : (prepareCurve image).adjusted = false ↔ min 8 (byteAt image 98) = byteAt image 98 ∧
      (∀ i < min 8 (byteAt image 98), (pointAt image i).temp = s16At image (99 + 4 * i) ∧
        (pointAt image i).factor = u16At image (101 + 4 * i)) ∧
      (prepareCurve image).value.length = min 8 (byteAt image 98) := by
    rw [← clampNat_zero]
    unfold prepareCurve pointAt
    simp only [Bool.or_eq_false_iff, List.any_eq_false, Bool.not_eq_true, List.mem_map,
      List.mem_range, bne_eq_false_iff_eq, List.length_map, List.length_range, and_assoc,
      forall_exists_index, and_imp, forall_apply_eq_imp_iff₂, prepareNat, prepareInt,
      clampNat_eq (show 8192 ≤ 32767 by omega), clampInt_eq (show (-400 : Int) ≤ 800 by omega)]
  rw [hmark]
  constructor
  · rintro ⟨hcount, hpoints, hlength⟩
    rw [hcount] at hpoints hlength
    exact ⟨by omega, hlength, hpoints⟩
  · rintro ⟨hcount, hlength, hpoints⟩
    rw [min_eq_right hcount]
    exact ⟨rfl, hpoints, hlength⟩

/-! ## The class table -/

/-- The class entry of the image at one address, clamped (R114, R115). -/
def entryAt (image : List Byte) (a : Nat) : ClassEntry :=
  let b := byteAt image
  { code := b a, leastAxles := max 1 (min 12 (b (a + 1))), greatestAxles := max 1 (min 12 (b (a + 2)))
    track := match b (a + 3) with
      | 1 => .singleTrack
      | 2 => .twoTrack
      | _ => .any
    gross := if (b (a + 4)).testBit 0
      then some (min 786420 (u24At image (a + 5)), min 786420 (u24At image (a + 8))) else none
    conditions := (List.range (min 6 (b (a + 16)))).map (fun i =>
      { index := max 1 (min 11 (b (a + 17 + 5 * i))), least := u16At image (a + 18 + 5 * i)
        greatest := u16At image (a + 20 + 5 * i) })
    grossLimit := if (b (a + 4)).testBit 1 then some (max 1 (min 786420 (u24At image (a + 11)))) else none
    axleLimit := if (b (a + 4)).testBit 2 then some (max 1 (min 65535 (u16At image (a + 14)))) else none }

theorem prepareOptional_value {α : Type} (present : Bool) (x : Prepared α) :
    (prepareOptional present x).value = if present then some x.value else none := by
  unfold prepareOptional
  split <;> rfl

theorem prepareOptional_adjusted {α : Type} (present : Bool) (x : Prepared α) :
    (prepareOptional present x).adjusted = false ↔ (present = true → x.adjusted = false) := by
  unfold prepareOptional
  split <;> simp_all

theorem prepareTrack_value (raw : Nat) : (prepareTrack raw).value = match raw with
    | 1 => .singleTrack
    | 2 => .twoTrack
    | _ => .any := by
  unfold prepareTrack
  split <;> grind

theorem prepareTrack_adjusted (raw : Nat) : (prepareTrack raw).adjusted = false ↔ raw ≤ 2 := by
  unfold prepareTrack
  split <;> grind

/-- A class code outside 1..63 drops the entry (R115). -/
theorem prepareEntry_value (image : List Byte) (a : Nat) : (prepareEntry image a).value =
    if 1 ≤ byteAt image a ∧ byteAt image a ≤ 63 then some (entryAt image a) else none := by
  unfold prepareEntry
  simp only
  split
  · exact (if_neg (by omega)).symm
  · rw [if_pos (by omega)]
    simp only [prepareOptional_value, prepareTrack_value, prepareNat, clampNat_zero, List.map_map, Function.comp_def,
      clampNat_eq (show 1 ≤ 12 by omega), clampNat_eq (show 1 ≤ 11 by omega), clampNat_eq (show 1 ≤ 786420 by omega),
      clampNat_eq (show 1 ≤ 65535 by omega)]
    rfl

theorem prepareEntries_eq_map {image : List Byte} (n : Nat) (place : Nat → Nat)
    (hstep : ∀ k, place (k + 1) = place k + 17 + 5 * byteAt image (place k + 16)) :
    prepareEntries image n (place 0) = (List.range n).map fun k => prepareEntry image (place k) := by
  induction n generalizing place with
  | zero => rfl
  | succ n ih =>
    unfold prepareEntries
    rw [← hstep 0, List.range_succ_eq_map, List.map_cons, List.map_map]
    exact congrArg _ (ih (fun k => place (k + 1)) fun k => hstep (k + 1))

/-- The class entry of an address stands as written, and some vehicle can meet it (R115). -/
def EntryStands (image : List Byte) (a : Nat) : Prop :=
  let b := byteAt image
  let e := entryAt image a
  1 ≤ b a ∧ b a ≤ 63 ∧ e.leastAxles = b (a + 1) ∧ e.greatestAxles = b (a + 2) ∧ b (a + 3) ≤ 2 ∧
    (∀ g, e.gross = some g → g = (u24At image (a + 5), u24At image (a + 8)) ∧ g.1 ≤ g.2) ∧
    (∀ g, e.grossLimit = some g → g = u24At image (a + 11)) ∧
    (∀ g, e.axleLimit = some g → g = u16At image (a + 14)) ∧ b (a + 16) ≤ 6 ∧
    (∀ i < b (a + 16), 1 ≤ b (a + 17 + 5 * i) ∧ b (a + 17 + 5 * i) ≤ 11) ∧
    e.leastAxles ≤ e.greatestAxles ∧ ∀ c ∈ e.conditions, c.least ≤ c.greatest ∧ c.index < e.greatestAxles

theorem unsatisfiable_eq_false (e : ClassEntry) : unsatisfiable e = false ↔ e.leastAxles ≤ e.greatestAxles ∧
    (∀ g, e.gross = some g → g.1 ≤ g.2) ∧ ∀ c ∈ e.conditions, c.least ≤ c.greatest ∧ c.index < e.greatestAxles := by
  unfold unsatisfiable
  cases e.gross <;> simp [and_assoc]

/-- A prepared optional part stands as written where it is present. -/
theorem optional_stands {α : Type} (present : Bool) (x raw : α) :
    (present = true → x = raw) ↔ ∀ g, (if present then some x else none) = some g → g = raw := by
  cases present <;> simp

/-- An entry that stays is adjusted unless all its parts stand (R115). -/
theorem prepareEntry_adjusted (image : List Byte) (a : Nat) :
    (prepareEntry image a).adjusted = false ↔ EntryStands image a := by
  have hvalue := prepareEntry_value image a
  unfold prepareEntry at hvalue ⊢
  by_cases hcode : byteAt image a < 1 ∨ 63 < byteAt image a
  · rw [if_pos hcode]
    exact iff_of_false (by simp) fun ⟨h1, h63, _⟩ => by omega
  · simp only [if_neg hcode, if_pos (show 1 ≤ byteAt image a ∧ byteAt image a ≤ 63 by omega), Option.some.injEq]
      at hvalue ⊢
    rw [hvalue]
    have hgross : ((byteAt image (a + 4)).testBit 0 = true → min 786420 (u24At image (a + 5)) = u24At image (a + 5) ∧
        min 786420 (u24At image (a + 8)) = u24At image (a + 8)) ↔
        ∀ g, (entryAt image a).gross = some g → g = (u24At image (a + 5), u24At image (a + 8)) := by
      rw [← Prod.mk.injEq]
      exact optional_stands _ _ _
    have hconditions (count : Nat) (index : Nat → Nat) :
        (min 6 count = count ∧ ∀ i < min 6 count, max 1 (min 11 (index i)) = index i) ↔
          count ≤ 6 ∧ ∀ i < count, 1 ≤ index i ∧ index i ≤ 11 := by
      rw [min_eq_right_iff]
      refine and_congr_right fun h => ?_
      rw [min_eq_right h]
      exact forall₂_congr fun i _ => by omega
    simp only [Bool.or_eq_false_iff, prepareTrack_adjusted, prepareOptional_adjusted,
      unsatisfiable_eq_false, List.any_eq_false, prepareNat, clampNat_zero, clampNat_eq (show 1 ≤ 12 by omega),
      clampNat_eq (show 1 ≤ 11 by omega), clampNat_eq (show 1 ≤ 786420 by omega), List.mem_map, List.mem_range,
      forall_exists_index, and_imp, forall_apply_eq_imp_iff₂, Bool.not_eq_true, bne_eq_false_iff_eq,
      clampNat_eq (show 1 ≤ 65535 by omega), optional_stands, and_assoc]
    constructor
    · rintro ⟨hleast, hgreatest, htrack, hg, hlimit, haxle, hcount, hindex, hsome, hrange, hmet⟩
      obtain ⟨hcount, hindex⟩ := (hconditions _ _).1 ⟨hcount, hindex⟩
      exact ⟨by omega, by omega, hleast, hgreatest, htrack, fun g hs => ⟨hgross.1 hg g hs, hrange g hs⟩, hlimit, haxle,
        hcount, hindex, hsome, hmet⟩
    · rintro ⟨-, -, hleast, hgreatest, htrack, hg, hlimit, haxle, hcount, hindex, hsome, hmet⟩
      obtain ⟨hcount, hindex⟩ := (hconditions _ _).2 ⟨hcount, hindex⟩
      exact ⟨hleast, hgreatest, htrack, hgross.2 fun g hs => (hg g hs).1, hlimit, haxle, hcount, hindex, hsome,
        fun g hs => (hg g hs).2, hmet⟩

theorem filterMap_ite {α β : Type} (p : α → Prop) [DecidablePred p] (f : α → β) (l : List α) :
    l.filterMap (fun x => if p x then some (f x) else none) = (l.filter p).map f := by
  induction l with
  | nil => rfl
  | cons x l ih => by_cases h : p x <;> simp [h, ih]

theorem prepareTable_value {image : List Byte} (place : Nat → Nat) (h0 : place 0 = classCountAt image + 1)
    (hstep : ∀ k, place (k + 1) = place k + 17 + 5 * byteAt image (place k + 16)) :
    (prepareTable image).value = (((List.range (min 24 (byteAt image (classCountAt image)))).map place).filter
      (fun a => 1 ≤ byteAt image a ∧ byteAt image a ≤ 63)).map (entryAt image) := by
  unfold prepareTable
  simp only [prepareNat, clampNat_zero]
  rw [← h0, prepareEntries_eq_map _ place hstep, List.filterMap_map, ← filterMap_ite, List.filterMap_map]
  exact List.filterMap_congr fun k _ => prepareEntry_value image (place k)

theorem prepareTable_adjusted {image : List Byte} (place : Nat → Nat) (h0 : place 0 = classCountAt image + 1)
    (hstep : ∀ k, place (k + 1) = place k + 17 + 5 * byteAt image (place k + 16)) :
    (prepareTable image).adjusted = false ↔ byteAt image (classCountAt image) ≤ 24 ∧
      ∀ k < byteAt image (classCountAt image), EntryStands image (place k) := by
  unfold prepareTable
  simp only [prepareNat, clampNat_zero, Bool.or_eq_false_iff, bne_eq_false_iff_eq]
  rw [← h0, prepareEntries_eq_map _ place hstep]
  simp only [List.any_eq_false, Bool.not_eq_true, List.mem_map, List.mem_range, forall_exists_index, and_imp,
    forall_apply_eq_imp_iff₂, prepareEntry_adjusted, min_eq_right_iff]
  exact and_congr_right fun h => by rw [min_eq_right h]

/-- Settles O15: the curve is cut by `cutCurve_range`, and the table keeps the entries of the walk. -/
theorem tablesArePrepared : Obligations.TablesArePrepared := by
  intro own image place p clamp b point countAt h0 hstep entry count stands
  obtain ⟨n, hn, hcut, hrising, hstop⟩ := cutCurve_range (min 8 (b 98)) point
  refine ⟨⟨n, hn, (prepareCurve_value image).trans hcut, hrising, hstop⟩, ?_, prepareCurve_adjusted image,
    prepareTable_adjusted place h0 hstep⟩
  refine (prepareTable_value place h0 hstep).trans (congrArg _ (List.filter_congr fun a _ => ?_))
  exact Bool.decide_and _ _

end Sys2Proof.Machine.Laws
end

section
/-!
# A sample: the detector and the four channels (chapter 01)

`detect_loaded` reduces a sample of a loaded channel to `detectNet`; `takeSample_eq` says what one sample does to the station
before the arrivals, and `interleaveBy_perm` with its two companions what the free order of the arrivals may be.
-/
namespace Sys2Proof.Machine.Laws
open Sys2Proof.Machine.Safety

variable {s : State}

/-! ## The detector -/

theorem detect_unloaded {c : Channel} (h : c.baseline = none) (θ ρ : Int) (maxPulse : Nat) (n : SampleIndex) (x : Int) :
    detect θ ρ maxPulse n x c = ({ c with baseline := some (x * 256) }, .nothing) := by
  unfold detect
  rw [h]

theorem detect_loaded {c : Channel} {b : Int} (h : c.baseline = some b) (θ ρ : Int) (maxPulse : Nat) (n : SampleIndex)
    (x : Int) : detect θ ρ maxPulse n x c = detectNet θ ρ maxPulse n x b (x - b / 256) c := by
  unfold detect
  rw [h]
  simp only [netSample, Int.fdiv_eq_ediv_of_nonneg b (show (0 : Int) ≤ 256 by omega)]

theorem baselineStep_eq (b x : Int) : baselineStep b x = b + (x * 256 - b) / 256 := by
  rw [baselineStep, Int.fdiv_eq_ediv_of_nonneg _ (by omega)]

theorem pulseDuration_eq {c : Channel} {start : SampleIndex} (h : c.start = some start) (n : SampleIndex) :
    pulseDuration n c = (n - start).toInt + 1 := by
  unfold pulseDuration
  rw [h]
  rfl

/-- The midpoint of a pulse that spans `k` samples (R10). -/
theorem pulseTime_add (start : SampleIndex) {k : Nat} (hk : k < 2 ^ 30) :
    pulseTime start (start + BitVec.ofNat 31 k) = BitVec.ofNat 32 (2 * start.toNat + k) := by
  have hspan : start + BitVec.ofNat 31 k - start = BitVec.ofNat 31 k := by bv_omega
  have hint : (BitVec.ofNat 31 k).toInt = k := by
    rw [BitVec.toInt_eq_toNat_of_lt] <;> rw [BitVec.toNat_ofNat, Nat.mod_eq_of_lt (by omega)]
    omega
  unfold pulseTime
  rw [hspan, hint, BitVec.ofInt_natCast, ← BitVec.ofNat_add]

/-- Settles O20: the detector by its state, the codes by evaluation, and the midpoint. -/
theorem detectorFollowsTable : Obligations.DetectorFollowsTable := by
  refine ⟨fun θ ρ maxPulse n start x b c => ⟨fun h => detect_unloaded h .., fun hb => ?_⟩, ⟨by decide, by decide⟩,
    fun start k hk => pulseTime_add start hk⟩
  intro net grow empty
  refine ⟨fun hd => ?idle, fun hd => ?qualify, fun hd hs => ?pulse, fun finish hd hs hf => ?tail, fun hd => ?held⟩ <;>
    rw [detect_loaded hb] <;> unfold detectNet <;> rw [hd] <;> simp only
  case idle => rw [baselineStep_eq]
  case qualify =>
    by_cases h : net ≤ θ
    · rw [if_pos h, if_neg (not_lt.2 h)]
      rfl
    · rw [if_neg h, if_pos (not_le.1 h)]
      rfl
  case pulse =>
    rw [pulseDuration_eq hs]
    split
    · rfl
    · exact apply_ite (Prod.mk · Detection.nothing) _ _ _
  case tail =>
    rw [pulseDuration_eq hs]
    unfold inTail
    rw [show c.start.getD n = start by rw [hs]; rfl, show c.tentativeEnd.getD n = finish by rw [hf]; rfl, hd]
    rfl

/-! ## The arrivals of a sample -/

theorem interleaveBy_perm {α : Type} (fuel k : Nat) (l r : List α) : (interleaveBy fuel k l r).Perm (l ++ r) := by
  induction fuel generalizing k l r with
  | zero => exact .refl _
  | succ fuel ih =>
    cases l with
    | nil => exact .refl _
    | cons a l =>
      cases r with
      | nil => exact .refl _
      | cons b r =>
        unfold interleaveBy
        split
        · exact (ih _ l (b :: r)).cons a
        · exact ((ih _ (a :: l) r).cons b).trans List.perm_middle.symm

theorem sublist_interleaveBy_left {α : Type} (fuel k : Nat) (l r : List α) : l.Sublist (interleaveBy fuel k l r) := by
  induction fuel generalizing k l r with
  | zero => exact List.sublist_append_left l r
  | succ fuel ih =>
    cases l with
    | nil => exact List.sublist_append_left _ _
    | cons a l =>
      cases r with
      | nil => exact List.sublist_append_left _ _
      | cons b r =>
        unfold interleaveBy
        split
        · exact (ih _ l (b :: r)).cons_cons a
        · exact (ih _ (a :: l) r).cons b

theorem sublist_interleaveBy_right {α : Type} (fuel k : Nat) (l r : List α) : r.Sublist (interleaveBy fuel k l r) := by
  induction fuel generalizing k l r with
  | zero => exact List.sublist_append_right l r
  | succ fuel ih =>
    cases l with
    | nil => exact List.sublist_append_right _ _
    | cons a l =>
      cases r with
      | nil => exact List.sublist_append_right _ _
      | cons b r =>
        unfold interleaveBy
        split
        · exact (ih _ l (b :: r)).cons a
        · exact (ih _ (a :: l) r).cons_cons b

/-- A pulse record reaches its half as a lead or as a trail (R14). -/
theorem pulseArrival_eq (x : Pulse) (t : State) : t.pulseArrival x = match x.chan with
    | .ll => t.leadArrival .left x
    | .lr => t.leadArrival .right x
    | .tl => t.trailArrival .left x
    | .tr => t.trailArrival .right x := by
  unfold State.pulseArrival
  cases x.chan <;> rfl

theorem live_left_iff (s : State) :
    s.live .left = true ↔ s.control.params.gain.ll ≠ 0 ∧ s.control.params.gain.tl ≠ 0 := by simp [State.live]

theorem live_right_iff (s : State) :
    s.live .right = true ↔ s.control.params.gain.lr ≠ 0 ∧ s.control.params.gain.tr ≠ 0 := by simp [State.live]

/-! ## One sample -/

/-- The memory's status is polled while the start or the store waits for it (R137, R160). -/
theorem pollMemory_eq (heven : s.localTime.toNat % 2 = 0) : s.pollMemory = { s with
    drift := if 0 < (s.localTime - s.drift.phaseAt).toInt ∧ (s.control.station = .starting ∧ s.control.held = false ∨
        s.drift.store = .erasing ∨ s.drift.store = .programming) then { s.drift with port := [.readStatus] }
      else s.drift } := by
  have hcond : (s.answered && (s.starts || s.drift.store = .erasing || s.drift.store = .programming)) = true ↔
      0 < (s.localTime - s.drift.phaseAt).toInt ∧ (s.control.station = .starting ∧ s.control.held = false ∨
        s.drift.store = .erasing ∨ s.drift.store = .programming) := by
    rw [Bool.and_eq_true, answered_iff, Bool.or_eq_true, Bool.or_eq_true, starts_iff, decide_eq_true_eq,
      decide_eq_true_eq, or_assoc, and_iff_right heven]
  unfold State.pollMemory
  by_cases h : 0 < (s.localTime - s.drift.phaseAt).toInt ∧ (s.control.station = .starting ∧ s.control.held = false ∨
      s.drift.store = .erasing ∨ s.drift.store = .programming)
  · rw [if_pos (hcond.2 h), if_pos h]
  · rw [if_neg (mt hcond.1 h), if_neg h]

/-- A fitted loop's run of equal levels grows to three or begins anew (R75). -/
def loopRead (high : Bool) (s : State) : Loop :=
  let l := s.assembler.loop
  if s.control.params.loopFitted = false then l
  else if l.count ≠ 0 ∧ l.level = high then { l with count := min 3 (l.count + 1) }
  else { l with level := high, count := 1, since := s.localTime }

theorem readLoop_eq (high : Bool) (s : State) :
    s.readLoop high = { s with assembler := { s.assembler with loop := loopRead high s } } := by
  unfold loopRead
  unfold State.readLoop
  cases s.control.params.loopFitted
  · rfl
  · simp

theorem countOverlong_eq {l : List Detection} {n : Nat} (hn : (l.filter fun d => d = .overlong).length = n) (s : State) :
    s.countOverlong l = { s with
      counters := if n = 0 then s.counters else s.counters.set 2 (min 65535 (s.counters[2] + n)) } := by
  subst hn
  unfold State.countOverlong
  split
  next h => rw [if_pos h]
  next h =>
    rw [if_neg h]
    rfl

/-- The pulse records that a channel hands to its half (R2, R14). -/
theorem handedPulse_eq (live : Bool) (c : Chan) (d : Detection) :
    handedPulse live c d = if live then handedPulse true c d else [] := by
  cases live <;> cases d <;> rfl

theorem handedPulse_live {live : Bool} {p : Prop} [Decidable p] (h : live = true ↔ p) (c d : Chan) (x y : Detection) :
    handedPulse live c x ++ handedPulse live d y =
      if p then handedPulse true c x ++ handedPulse true d y else [] := by
  rw [handedPulse_eq, handedPulse_eq live]
  by_cases hp : p
  · rw [if_pos hp, h.2 hp]
    rfl
  · rw [if_neg hp, Bool.eq_false_of_not_eq_true (mt h.1 hp)]
    rfl

/-- A station that measures, between the poll of its memory and the arrivals of the sample. -/
def sampled (codes : PerChannel (BitVec 16)) (loopHigh : Bool) (s : State) : State :=
  let one := fun c => s.channelSample c (codes.get c)
  let n := ([Chan.ll, .lr, .tl, .tr].filter fun c => (one c).2 = .overlong).length
  { s with
    channels := ⟨(one .ll).1, (one .lr).1, (one .tl).1, (one .tr).1⟩
    counters := if n = 0 then s.counters else s.counters.set 2 (min 65535 (s.counters[2] + n))
    assembler := { s.assembler with loop := loopRead loopHigh s } }

theorem takeSample_eq (codes : PerChannel (BitVec 16)) (loopHigh : Bool) (s : State) :
    s.takeSample codes.ll codes.lr codes.tl codes.tr loopHigh = (sampled codes loopHigh s).arrivals
      (handedPulse (s.live .left) .tl (s.channelSample .tl codes.tl).2 ++
        handedPulse (s.live .left) .ll (s.channelSample .ll codes.ll).2)
      (handedPulse (s.live .right) .tr (s.channelSample .tr codes.tr).2 ++
        handedPulse (s.live .right) .lr (s.channelSample .lr codes.lr).2) := by
  unfold State.takeSample
  simp only
  rw [countOverlong_eq (n := ([Chan.ll, .lr, .tl, .tr].filter fun c =>
    (s.channelSample c (codes.get c)).2 = .overlong).length) ?_, readLoop_eq]
  · rfl
  · rw [← List.length_map (f := fun c => (s.channelSample c (codes.get c)).2)]
    exact congrArg List.length (List.filter_map (f := fun c => (s.channelSample c (codes.get c)).2)
      (p := fun d => decide (d = .overlong)) (l := [.ll, .lr, .tl, .tr]))

theorem arrivals_alone {left right : List Pulse} (h : left = [] ∨ right = []) (s : State) :
    s.arrivals left right = (left ++ right).foldl (fun t x => t.pulseArrival x) s := by
  refine if_pos ?_
  rcases h with rfl | rfl <;> simp

theorem arrivals_both {left right : List Pulse} (hl : left ≠ []) (hr : right ≠ []) (s : State) : ∃ order : List Pulse,
    order.Perm (left ++ right) ∧ left.Sublist order ∧ right.Sublist order ∧
      s.arrivals left right = order.foldl (fun t x => t.pulseArrival x) { s with freeCount := s.freeCount + 1 } :=
  ⟨_, interleaveBy_perm _ _ left right, sublist_interleaveBy_left _ _ left right, sublist_interleaveBy_right _ _ left right,
    if_neg (by simp [hl, hr])⟩

/-- Settles O19: the poll, the four channels and the loop, and then the arrivals. -/
theorem sampleActsChannelwise : Obligations.SampleActsChannelwise := by
  intro s codes loopHigh p one abandoned pulse left right arrive polls drift l read run
  have harrive : (fun (t : State) x => t.pulseArrival x) = arrive := funext₂ fun t x => pulseArrival_eq x t
  have hpulse (c : Chan) : handedPulse true c (one c).2 = pulse c := by
    show handedPulse true c (one c).2 = match (one c).2 with
      | .pulse time area saturated => [({ chan := c, time := time, area := area, saturated := saturated } : Pulse)]
      | _ => []
    cases (one c).2 <;> rfl
  refine ⟨fun hodd => if_neg ?_, fun heven hm => ?_, fun heven hm => ?_⟩
  · rw [sampleInstant_iff]
    omega
  · refine (if_pos ((sampleInstant_iff _).2 heven)).trans ((if_neg (by simp [hm])).trans ?_)
    rw [pollMemory_eq heven]
  · have hrun : run = .next (read.arrivals left right) := by
      refine (if_pos ((sampleInstant_iff _).2 heven)).trans ((if_pos hm).trans ?_)
      rw [pollMemory_eq heven, takeSample_eq, handedPulse_live (live_left_iff _), handedPulse_live (live_right_iff _)]
      show Host.Outcome.next (State.arrivals (if _ then handedPulse true .tl (one .tl).2 ++ handedPulse true .ll (one .ll).2 else [])
        (if _ then handedPulse true .tr (one .tr).2 ++ handedPulse true .lr (one .lr).2 else []) _) = _
      rw [hpulse, hpulse, hpulse, hpulse]
      rfl
    refine ⟨fun h => ?_, fun hl hr => ?_⟩
    · rw [hrun, arrivals_alone h, harrive]
    · obtain ⟨order, hp, hl, hr, h⟩ := arrivals_both hl hr read
      exact ⟨order, hp, hl, hr, by rw [hrun, h, harrive]⟩

/-! ## A quiet sample -/

/-- A quiet channel in IDLE moves its baseline alone (R5, R6). -/
theorem channelSample_quiet {c : Chan} {code : BitVec 16} {b : Int} (hg : s.control.params.gain.get c ≠ 0)
    (hd : (s.channels.get c).detector = .idle) (hb : (s.channels.get c).baseline = some b)
    (hx : code.toInt - b / 256 ≤ theta (s.control.params.threshold.get c)) : s.channelSample c code =
      ({ s.channels.get c with baseline := some (b + (code.toInt * 256 - b) / 256) }, .nothing) := by
  refine (if_neg hg).trans ?_
  simp only [detect_loaded hb]
  unfold detectNet
  rw [hd]
  exact (if_pos hx).trans (by rw [baselineStep_eq])

/-- Settles O18: no channel hands a pulse over, and neither the memory nor the loop is read. -/
theorem quietSampleMovesBaselines : Obligations.QuietSampleMovesBaselines := by
  intro s ll lr tl tr loopHigh b1 b2 b3 b4 hm heven hstore hloop hgain hidle h1 h2 h3 h4 q1 q2 q3 q4
  have hpoll : s.pollMemory = s := by
    rw [pollMemory_eq heven, if_neg]
    rintro ⟨-, ⟨hst, -⟩ | h | h⟩
    · exact not_starting_of_measuring hm hst
    · simp [hstore] at h
    · simp [hstore] at h
  refine (if_pos ((sampleInstant_iff _).2 heven)).trans ((if_pos hm).trans (congrArg _ ?_))
  have hll := channelSample_quiet (hgain .ll) (hidle .ll) h1 q1
  have hlr := channelSample_quiet (hgain .lr) (hidle .lr) h2 q2
  have htl := channelSample_quiet (hgain .tl) (hidle .tl) h3 q3
  have htr := channelSample_quiet (hgain .tr) (hidle .tr) h4 q4
  have hnone : ([Chan.ll, .lr, .tl, .tr].filter fun c =>
      (s.channelSample c ((⟨ll, lr, tl, tr⟩ : PerChannel (BitVec 16)).get c)).2 = .overlong).length = 0 := by
    simp [PerChannel.get, hll, hlr, htl, htr]
  rw [hpoll, takeSample_eq ⟨ll, lr, tl, tr⟩]
  simp only [sampled, hnone, if_true]
  simp only [loopRead, PerChannel.get, hll, hlr, htl, htr, hloop, handedPulse, if_true]
  exact arrivals_alone (.inl rfl) _

end Sys2Proof.Machine.Laws
end

section
/-!
# Pairing and half combination (chapter 02)

What expiry, an arrival and a release do to the lists of a half, said as next states; then half combination by its steps, and
the admission of an axle behind the halves that wait (R29).
-/
namespace Sys2Proof.Machine.Laws
open Sys2Proof.Machine.Safety

variable {s : State} {h : Half}

/-! ## Lists, counters and the signal of a lone lead -/

theorem setLists_eq (h : Half) (l : HalfLists) (s : State) : s.setLists h l = { s with pairs := withLists s h l } := by
  cases h <;> rfl

theorem bump_eq (c : Counter) (s : State) : s.bump c = { s with counters := counted c.place s.counters } := rfl

theorem measuringSample_of (hm : s.measuring = true) (heven : s.localTime.toNat % 2 = 0) : s.measuringSample = true := by
  rw [State.measuringSample, hm, (sampleInstant_iff _).2 heven]
  rfl

/-- Leads that expire are counted and mark the open vehicle INCOMPLETE (R23). -/
theorem expireLeads_eq (n : Nat) (s : State) : s.expireLeads n = if n = 0 then s else { s with
    counters := s.counters.set 0 (min 65535 (s.counters[0] + n))
    assembler := { s.assembler with
      openVehicle := s.assembler.openVehicle.map (fun v => { v with flags := { v.flags with incomplete := true } }) } } :=
  rfl

theorem expireOrphans_eq (n : Nat) (s : State) : s.expireOrphans n = if n = 0 then s else { s with
    counters := s.counters.set 1 (min 65535 (s.counters[1] + n)) } := rfl

theorem expireLeads_pairs (n : Nat) (s : State) : (s.expireLeads n).pairs = s.pairs := by
  unfold State.expireLeads
  split <;> rfl

theorem expireOrphans_pairs (n : Nat) (s : State) : (s.expireOrphans n).pairs = s.pairs := by
  unfold State.expireOrphans
  split <;> rfl

theorem expireOrphans_assembler (n : Nat) (s : State) : (s.expireOrphans n).assembler = s.assembler := by
  unfold State.expireOrphans
  split <;> rfl

/-! ## Expiry by age -/

theorem agedLead_head {x : Pulse} {rest : List Pulse} (hm : s.measuringSample = true)
    (hl : (s.pairs.get h).leads = x :: rest) (hx : s.aged x = true) : s.agedLead h = some x := by
  unfold State.agedLead
  rw [if_pos hm, hl, List.find?_cons_of_pos hx]

theorem agedOrphan_head {x : Pulse} {rest : List Pulse} (hm : s.measuringSample = true)
    (hl : (s.pairs.get h).orphans = x :: rest) (hx : s.aged x = true) : s.agedOrphan h = some x := by
  unfold State.agedOrphan
  rw [if_pos hm, hl, List.find?_cons_of_pos hx]

/-- Settles O21: the search finds the head of the list, or nothing. -/
theorem agedEntryExpires : Obligations.AgedEntryExpires := by
  intro s h hm heven aged
  have hs := measuringSample_of hm heven
  refine ⟨fun x rest hl hx => ?_, fun x rest hl hx => ?_, fun hn => ?_, fun hn => ?_⟩
  · show execLeadExpiryByAge h s = _
    rw [listsOf_eq_get] at hl ⊢
    unfold execLeadExpiryByAge
    rw [agedLead_head hs hl ((aged_iff s x).2 hx)]
    simp only [hl, List.erase_cons_head, setLists_eq]
    rfl
  · show execOrphanExpiryByAge h s = _
    rw [listsOf_eq_get] at hl ⊢
    unfold execOrphanExpiryByAge
    rw [agedOrphan_head hs hl ((aged_iff s x).2 hx)]
    simp only [hl, List.erase_cons_head, setLists_eq]
    rfl
  · have hnone : s.agedLead h = none := by
      rw [← Option.not_isSome_iff_eq_none, agedLead_isSome_iff]
      rintro ⟨-, x, hx, ha⟩
      exact hn x hx ((aged_iff s x).1 ha)
    show execLeadExpiryByAge h s = _
    unfold execLeadExpiryByAge
    rw [hnone]
  · have hnone : s.agedOrphan h = none := by
      rw [← Option.not_isSome_iff_eq_none, agedOrphan_isSome_iff]
      rintro ⟨-, x, hx, ha⟩
      exact hn x hx ((aged_iff s x).1 ha)
    show execOrphanExpiryByAge h s = _
    unfold execOrphanExpiryByAge
    rw [hnone]

/-! ## Arrivals -/

theorem inWindow_iff (p : Params) (i : Int) : inWindow p i = true ↔
    ((p.spacing * 16384 + 69999) / 70000 : Nat) ≤ i ∧ i ≤ (p.spacing * 16384 / 1000 : Nat) := by
  simp [inWindow]

theorem not_tooOld_eq (p : Params) (t : LocalTime) (x : Pulse) :
    (!State.tooOld p t x) = decide ((t - x.time).toInt ≤ (p.spacing * 16384 / 1000 : Nat)) := by
  rw [Bool.eq_iff_iff]
  simp [State.tooOld]

/-- A trail joins the orphans, a full list first losing its oldest, which is counted (R19, R23). -/
theorem joinOrphans_room {t : State} {trail : Pulse} (hroom : (listsOf t h).orphans.length < 4) (leads : List Pulse) :
    t.joinOrphans h trail leads = { t with
      pairs := withLists t h { listsOf t h with leads := leads, orphans := (listsOf t h).orphans ++ [trail] } } := by
  unfold State.joinOrphans
  rw [← listsOf_eq_get]
  exact (if_neg (not_le.2 hroom)).trans (setLists_eq _ _ _)

theorem joinOrphans_full {t : State} {trail oldest : Pulse} {others : List Pulse}
    (ho : (listsOf t h).orphans = oldest :: others) (hfull : others.length = 3) (leads : List Pulse) :
    t.joinOrphans h trail leads = { t with
      counters := counted 1 t.counters
      pairs := withLists t h { listsOf t h with leads := leads, orphans := others ++ [trail] } } := by
  unfold State.joinOrphans
  simp only
  rw [← listsOf_eq_get, ho, if_pos (show Config.orphanCapacity ≤ (oldest :: others).length by
    rw [List.length_cons, hfull]), setLists_eq]
  rfl

/-- The leads of a half that are not too old for a trail (R21). -/
theorem trailArrival_pairs {trail lead : Pulse} {rest : List Pulse}
    (hk : (listsOf s h).leads.filter (fun x => !State.tooOld s.control.params trail.time x) = lead :: rest)
    (hw : inWindow s.control.params (trail.time - lead.time).toInt = true) : s.trailArrival h trail =
      ((s.expireLeads ((listsOf s h).leads.length - (lead :: rest).length)).setLists h
        { listsOf s h with leads := rest }).combineHalf (formHalfAxle s.control.params h .forward lead trail) := by
  unfold State.trailArrival
  simp only
  rw [← listsOf_eq_get, hk]
  exact if_pos hw

theorem trailArrival_joins {trail : Pulse} {kept : List Pulse}
    (hk : (listsOf s h).leads.filter (fun x => !State.tooOld s.control.params trail.time x) = kept)
    (hw : ∀ lead rest, kept = lead :: rest → ¬ inWindow s.control.params (trail.time - lead.time).toInt = true) :
    s.trailArrival h trail =
      (s.expireLeads ((listsOf s h).leads.length - kept.length)).joinOrphans h trail kept := by
  unfold State.trailArrival
  simp only
  rw [← listsOf_eq_get, hk]
  cases kept with
  | nil => rfl
  | cons lead rest => exact if_neg (hw lead rest rfl)

/-- Settles O22: the arrival by the oldest lead that remains. -/
theorem trailTakesOldestLead : Obligations.TrailTakesOldestLead := by
  intro s h trail D least greatest lists interval kept lone expired
  have hkept : lists.leads.filter (fun x => !State.tooOld s.control.params trail.time x) = kept :=
    List.filter_congr fun x _ => not_tooOld_eq _ _ _
  have hexpired : s.expireLeads (lists.leads.length - kept.length) = expired := expireLeads_eq _ s
  have hpairs : expired.pairs = s.pairs := hexpired ▸ expireLeads_pairs _ s
  have hlists : listsOf expired h = lists := by
    rw [listsOf_eq_get, hpairs, ← listsOf_eq_get]
  have hwith (l : HalfLists) : withLists expired h l = withLists s h l := by
    unfold withLists
    rw [hpairs]
  have hwindow (i : Int) : inWindow s.control.params i = true ↔ (least : Int) ≤ i ∧ i ≤ greatest := inWindow_iff _ i
  refine ⟨fun lead rest hk hleast => ?_, fun hnone => ?_⟩
  · have hin : lead ∈ kept := hk ▸ List.mem_cons_self
    rw [trailArrival_pairs (hkept.trans hk) ((hwindow _).2 ⟨hleast, of_decide_eq_true (List.mem_filter.1 hin).2⟩),
      ← hk, hexpired, setLists_eq, hwith]
    rfl
  · have hjoin : s.trailArrival h trail = expired.joinOrphans h trail kept := by
      rw [trailArrival_joins hkept fun lead rest hk hw => ?_, hexpired]
      rcases hnone with h | ⟨lead', rest', h, hless⟩
      · rw [h] at hk
        cases hk
      · rw [h] at hk
        cases hk
        exact absurd ((hwindow _).1 hw).1 (not_le.2 hless)
    refine ⟨fun hroom => ?_, fun oldest others ho hfull => ?_⟩
    · rw [hjoin, joinOrphans_room (hlists.symm ▸ hroom), hlists, hwith]
    · rw [hjoin, joinOrphans_full (hlists.symm ▸ ho) hfull, hlists, hwith]

/-- The entry that a search finds, and the list without it. -/
theorem find_erase_split {p : Pulse → Bool} {inits rest : List Pulse} {o : Pulse} (hi : ∀ x ∈ inits, p x = false)
    (ho : p o = true) :
    (inits ++ o :: rest).find? p = some o ∧ (inits ++ o :: rest).erase o = inits ++ rest := by
  have hnot : o ∉ inits := fun hm => by rw [hi o hm] at ho; cases ho
  refine ⟨?_, ?_⟩
  · rw [List.find?_append, List.find?_eq_none.2 (by simpa using hi), List.find?_cons_of_pos ho]
    rfl
  · rw [List.erase_append_right _ hnot, List.erase_cons_head]

theorem leadArrival_pairs {lead o : Pulse} {d : Direction} {kept : List Pulse}
    (hk : (listsOf s h).orphans.filter (fun x => !State.tooOld s.control.params lead.time x) = kept)
    (hfor : State.orphanFor s.control.params lead kept = some (d, o)) : s.leadArrival h lead =
      ((s.expireOrphans ((listsOf s h).orphans.length - kept.length)).setLists h
        { listsOf s h with orphans := kept.erase o }).combineHalf (formHalfAxle s.control.params h d lead o) := by
  unfold State.leadArrival
  simp only
  rw [← listsOf_eq_get, hk, hfor]

theorem leadArrival_joins {lead : Pulse} {kept : List Pulse}
    (hk : (listsOf s h).orphans.filter (fun x => !State.tooOld s.control.params lead.time x) = kept)
    (hfor : State.orphanFor s.control.params lead kept = none) {t : State}
    (ht : s.expireOrphans ((listsOf s h).orphans.length - kept.length) = t) :
    s.leadArrival h lead = if 8 ≤ (listsOf s h).leads.length then
        (t.expireLeads 1).setLists h { listsOf s h with orphans := kept, leads := (listsOf s h).leads.tail ++ [lead] }
      else t.setLists h { listsOf s h with orphans := kept, leads := (listsOf s h).leads ++ [lead] } := by
  unfold State.leadArrival
  simp only
  rw [← listsOf_eq_get, hk, hfor, ht]

/-- Settles O23: the arrival by the two searches in their order. -/
theorem leadTakesOrphan : Obligations.LeadTakesOrphan := by
  intro s h lead D window lists before behind kept old expired pair
  have hkept : lists.orphans.filter (fun x => !State.tooOld s.control.params lead.time x) = kept :=
    List.filter_congr fun x _ => not_tooOld_eq _ _ _
  have hexpired : s.expireOrphans (lists.orphans.length - kept.length) = expired := expireOrphans_eq _ s
  have hpairs : expired.pairs = s.pairs := hexpired ▸ expireOrphans_pairs _ s
  have hassembler : expired.assembler = s.assembler := hexpired ▸ expireOrphans_assembler _ s
  have hwith (l : HalfLists) : withLists expired h l = withLists s h l := by
    unfold withLists
    rw [hpairs]
  have hwindow (i : Int) : inWindow s.control.params i = true ↔ window i := inWindow_iff _ i
  have hwindow' (i : Int) : inWindow s.control.params i = false ↔ ¬ window i := by rw [← hwindow, Bool.not_eq_true]
  refine ⟨fun inits o rest hk hi ho => ?reverse, fun inits o rest hk hb hi ho => ?forward, fun hnone => ?joins⟩
  case reverse =>
    obtain ⟨hfind, herase⟩ := find_erase_split (p := fun o => inWindow s.control.params (before o)) (rest := rest)
      (fun x hx => (hwindow' _).2 (hi x hx)) ((hwindow _).2 ho)
    have hfor : State.orphanFor s.control.params lead kept = some (.reverse, o) := by
      unfold State.orphanFor
      rw [hk, hfind]
    rw [leadArrival_pairs hkept hfor, hexpired, setLists_eq, hwith, hk, herase]
    rfl
  case forward =>
    obtain ⟨hfind, herase⟩ := find_erase_split (p := fun o => inWindow s.control.params (behind o)) (rest := rest)
      (fun x hx => (hwindow' _).2 (hi x hx)) ((hwindow _).2 ho)
    have hbefore : kept.find? (fun o => inWindow s.control.params (before o)) = none :=
      List.find?_eq_none.2 fun x hx => by
        rw [Bool.not_eq_true]
        exact (hwindow' _).2 (hb x hx)
    have hfor : State.orphanFor s.control.params lead kept = some (.forward, o) := by
      unfold State.orphanFor
      rw [hbefore, hk, hfind]
      rfl
    rw [leadArrival_pairs hkept hfor, hexpired, setLists_eq, hwith, hk, herase]
    rfl
  case joins =>
    have hbefore : kept.find? (fun o => inWindow s.control.params (before o)) = none :=
      List.find?_eq_none.2 fun x hx => by
        rw [Bool.not_eq_true]
        exact (hwindow' _).2 (hnone x hx).1
    have hbehind : kept.find? (fun o => inWindow s.control.params (behind o)) = none :=
      List.find?_eq_none.2 fun x hx => by
        rw [Bool.not_eq_true]
        exact (hwindow' _).2 (hnone x hx).2
    have hfor : State.orphanFor s.control.params lead kept = none := by
      unfold State.orphanFor
      rw [hbefore, hbehind]
      rfl
    rw [leadArrival_joins hkept hfor hexpired]
    refine ⟨fun hroom => ?_, fun oldest others ho hfull => ?_⟩
    · exact (if_neg (not_le.2 hroom)).trans (by rw [setLists_eq, hwith])
    · refine (if_pos (by rw [ho, List.length_cons, hfull])).trans ?_
      rw [setLists_eq, ho, expireLeads_eq, if_neg (by omega), ← hwith, ← hassembler]
      rfl

/-! ## Speeds -/

/-- A speed over the pairing window (R17, R18). -/
theorem speed_inRange {D dt : Nat} (hD : 500 ≤ D) (hlo : (D * 16384 + 69999) / 70000 ≤ dt) (hhi : dt ≤ D * 16384 / 1000) :
    1000 ≤ D * 16384 / dt ∧ D * 16384 / dt ≤ 70000 := by
  have hpos : 0 < dt := by omega
  exact ⟨(Nat.le_div_iff_mul_le hpos).2 (by omega), Nat.div_le_of_le_mul (by omega)⟩

/-- Settles O24: both directions by `speed_inRange`, and the two figures by division. -/
theorem halfAxleSpeedInRange : Obligations.HalfAxleSpeedInRange := by
  intro p h lead trail hD _
  refine ⟨fun hlo hhi => ?_, fun hlo hhi => speed_inRange (dt := (lead.time - trail.time).toInt.toNat) hD ?_ ?_⟩
  · obtain ⟨h1, h2⟩ := speed_inRange (dt := (trail.time - lead.time).toInt.toNat) hD (by omega) (by omega)
    refine ⟨h1, h2, fun h3 h4 => ?_, fun h3 h4 => ?_⟩ <;>
      · show p.spacing * 16384 / (trail.time - lead.time).toInt.toNat = _
        rw [h3, h4]
        rfl
  · omega
  · omega

/-! ## Half combination -/

/-- The pairing unit with the slot of one half emptied. -/
def clearedSlot (h : Half) (s : State) : State := { s with pairs := withLists s h { listsOf s h with slot := none } }

theorem emptied_slot {l : HalfLists} (hl : l.slot = none) : ({ l with slot := none } : HalfLists) = l := by rw [← hl]

theorem setHalfSlot_eq (h : Half) (x : Option HalfAxle) (s : State) :
    s.setHalfSlot h x = { s with pairs := withLists s h { listsOf s h with slot := x } } := by cases h <;> rfl

theorem setHalfSlot_none (h : Half) (s : State) : s.setHalfSlot h none = clearedSlot h s := setHalfSlot_eq h none s

theorem clearedSlot_slot (h : Half) (s : State) : (listsOf (clearedSlot h s) h).slot = none := by cases h <;> rfl

/-- A single-half axle takes the values of its half (R27). -/
theorem alone_eq (x : HalfAxle) : x.alone =
    { direction := x.direction, time := x.leadTime, speed := x.speed
      left := if x.half = .left then some x else none
      right := if x.half = .right then some x else none } := by
  unfold HalfAxle.alone
  cases x.half <;> rfl

/-- Two local times less than 2^31 apart differ alike both ways. -/
theorem toInt_sub_swap {a b : LocalTime} (h : (b - a).toInt.natAbs < 2 ^ 31) : (a - b).toInt = -(b - a).toInt := by
  rw [show a - b = -(b - a) by bv_omega, BitVec.toInt_neg]
  exact Int.bmod_eq_of_le (by omega) (by omega)

/-- The axle of two mates, with lead times within the largest W_h (R27). -/
theorem combined_eq {l r : HalfAxle} (hnear : (l.leadTime - r.leadTime).toInt.natAbs ≤ 1024) : HalfAxle.combined l r =
    { direction := l.direction
      time := if 0 ≤ (r.leadTime - l.leadTime).toInt
        then l.leadTime + BitVec.ofInt 32 ((r.leadTime - l.leadTime).toInt / 2)
        else r.leadTime + BitVec.ofInt 32 ((l.leadTime - r.leadTime).toInt / 2)
      speed := (l.speed + r.speed) / 2, left := some l, right := some r } := by
  have half (d : Int) (hd : 0 ≤ d) : BitVec.ofNat 32 (d.natAbs / 2) = BitVec.ofInt 32 (d / 2) := by
    rw [show d / 2 = ((d.natAbs / 2 : Nat) : Int) by omega, BitVec.ofInt_natCast]
  have opposite : (r.leadTime - l.leadTime).toInt = -(l.leadTime - r.leadTime).toInt := toInt_sub_swap (by omega)
  unfold HalfAxle.combined
  simp only [later, sdiff]
  split
  next h => rw [half _ h]
  next h => rw [opposite, Int.natAbs_neg, half _ (by omega)]

theorem mates_iff (p : Params) (x y : HalfAxle) : State.mates p x y = true ↔
    x.direction = y.direction ∧ (x.leadTime - y.leadTime).toInt.natAbs ≤ p.skew := by
  simp [State.mates]

/-- A half that waits with a lead time before `t` (R29). -/
theorem waitingBefore_eq_some_iff (s : State) (h : Half) (t : LocalTime) (y : HalfAxle) :
    s.waitingBefore h t = some y ↔ (listsOf s h).slot = some y ∧ (y.leadTime - t).toInt < 0 := by
  unfold State.waitingBefore
  rw [listsOf_eq_get, Option.filter_eq_some_iff, decide_eq_true_eq]

theorem waitingBefore_eq_none {t : LocalTime} (hn : ∀ y, ¬ ((listsOf s h).slot = some y ∧ (y.leadTime - t).toInt < 0)) :
    s.waitingBefore h t = none :=
  Option.eq_none_iff_forall_ne_some.2 fun y hy => hn y ((waitingBefore_eq_some_iff s h t y).1 hy)

theorem admitOrdered_none {o : Observation} (hn : ∀ h, s.waitingBefore h o.time = none) :
    s.admitOrdered o = s.admitAxle o := by
  unfold State.admitOrdered
  rw [hn, hn]

theorem admitOrdered_one {o : Observation} {y : HalfAxle} (hy : s.waitingBefore h o.time = some y)
    (hn : s.waitingBefore h.other o.time = none) :
    s.admitOrdered o = ((clearedSlot h s).admitAxle y.alone).admitAxle o := by
  unfold State.admitOrdered
  cases h
  · rw [hy, show s.waitingBefore .right o.time = none from hn]
    rfl
  · rw [hy, show s.waitingBefore .left o.time = none from hn]
    rfl

/-- Two halves that wait are released the earlier first, in either order when their lead times are equal (R29). -/
theorem admitOrdered_two {o : Observation} {l r : HalfAxle} (hl : s.waitingBefore .left o.time = some l)
    (hr : s.waitingBefore .right o.time = some r) : s.admitOrdered o =
      if (l.leadTime - r.leadTime).toInt < 0 then
        (((clearedSlot .right (clearedSlot .left s)).admitAxle l.alone).admitAxle r.alone).admitAxle o
      else if 0 < (l.leadTime - r.leadTime).toInt then
        (((clearedSlot .right (clearedSlot .left s)).admitAxle r.alone).admitAxle l.alone).admitAxle o
      else if s.drawOrder % 2 = 0 then
        (((clearedSlot .right (clearedSlot .left s.drawn)).admitAxle l.alone).admitAxle r.alone).admitAxle o
      else (((clearedSlot .right (clearedSlot .left s.drawn)).admitAxle r.alone).admitAxle l.alone).admitAxle o := by
  unfold State.admitOrdered
  rw [hl, hr]
  rfl

/-- With the other half not live, a half-axle is admitted at once (R26). -/
theorem combineHalf_alone {x : HalfAxle} (hlive : s.live x.half.other = false) :
    s.combineHalf x = s.admitOrdered x.alone := if_neg (by simp [hlive])

/-- With its own slot empty, a half-axle meets its mate or waits (R26). -/
theorem combineHalf_mate {x y : HalfAxle} (hlive : s.live x.half.other = true) (hown : (listsOf s x.half).slot = none)
    (hy : (listsOf s x.half.other).slot = some y) (hm : State.mates s.control.params x y = true) :
    s.combineHalf x = (clearedSlot x.half.other s).admitOrdered (x.combine y) := by
  rw [listsOf_eq_get] at hown hy
  unfold State.combineHalf State.freeHalf
  simp only [hlive, hown, hy, hm, if_true, setHalfSlot_none]

theorem combineHalf_waits {x : HalfAxle} (hlive : s.live x.half.other = true) (hown : (listsOf s x.half).slot = none)
    (hn : ∀ y, (listsOf s x.half.other).slot = some y → State.mates s.control.params x y = false) :
    s.combineHalf x = s.setHalfSlot x.half (some x) := by
  rw [listsOf_eq_get] at hown hn
  unfold State.combineHalf State.freeHalf
  simp only [hlive, hown, if_true]
  cases hy : (s.pairs.get x.half.other).slot with
  | none => rfl
  | some y => simp [hn y hy]

/-- A half-axle that waits on its own side is released first (R26). -/
theorem combineHalf_releases {x q : HalfAxle} (hlive : s.live x.half.other = true)
    (hq : (listsOf s x.half).slot = some q) :
    s.combineHalf x = ((clearedSlot x.half s).admitOrdered q.alone).combineHalf x ∧
      (listsOf ((clearedSlot x.half s).admitOrdered q.alone) x.half).slot = none := by
  have hempty : (listsOf ((clearedSlot x.half s).admitOrdered q.alone) x.half).slot = none := by
    rw [listsOf_eq_get, admitOrdered_pairs, ← listsOf_eq_get]
    split
    · rfl
    · exact clearedSlot_slot _ _
  refine ⟨?_, hempty⟩
  have hlive' : ((clearedSlot x.half s).admitOrdered q.alone).live x.half.other = true := by
    unfold State.live at hlive ⊢
    rw [(Forms.admitOrdered none q.alone (clearedSlot x.half s)).control]
    exact hlive
  rw [listsOf_eq_get] at hq hempty
  unfold State.combineHalf
  rw [if_pos hlive, if_pos hlive']
  have hfree : s.freeHalf x.half = (clearedSlot x.half s).admitOrdered q.alone := by
    unfold State.freeHalf
    rw [hq]
    exact congrArg (State.admitOrdered q.alone) (setHalfSlot_none _ _)
  have hfree' : ((clearedSlot x.half s).admitOrdered q.alone).freeHalf x.half =
      (clearedSlot x.half s).admitOrdered q.alone := by
    unfold State.freeHalf
    rw [hempty]
  rw [hfree, hfree']

theorem dueHalf_eq {x : HalfAxle} (hm : s.measuringSample = true) (hx : (listsOf s h).slot = some x)
    (hdue : 0 ≤ (s.localTime - x.releaseTime s.control.params).toInt) : s.dueHalf h = some x := by
  rw [listsOf_eq_get] at hx
  unfold State.dueHalf
  rw [if_pos hm, hx]
  exact Option.filter_eq_some_iff.2 ⟨rfl, (reached_iff _ _).2 hdue⟩

theorem exec_halfRelease {x : HalfAxle} (hm : s.measuringSample = true) (hx : (listsOf s h).slot = some x)
    (hdue : 0 ≤ (s.localTime - x.releaseTime s.control.params).toInt) :
    exec (.halfRelease h) s = .next ((clearedSlot h s).admitOrdered x.alone) := by
  show execHalfRelease h s = _
  unfold execHalfRelease
  rw [dueHalf_eq hm hx hdue]
  exact congrArg (fun t => Host.Outcome.next (State.admitOrdered x.alone t)) (setHalfSlot_none h s)

/-- Settles O25: the steps of half combination, the release, and the halves that wait before an axle. -/
theorem matesCombine : Obligations.MatesCombine := by
  unfold Obligations.MatesCombine
  intro single cleared
  have hsingle (x : HalfAxle) : x.alone = single x := alone_eq x
  refine ⟨fun s l r hl hr hdir livel liver hle hge hskew => ?mates, fun s x => ?steps,
    fun s h x hm heven hx => ?release, fun s o => ?ordered⟩
  case mates =>
    intro axle free
    have hnear : (l.leadTime - r.leadTime).toInt.natAbs ≤ s.control.params.skew := by omega
    have hcombined : HalfAxle.combined l r = axle := combined_eq (by omega)
    have admits (t : State) (h1 : (listsOf t .left).slot = none) (h2 : (listsOf t .right).slot = none) :
        t.admitOrdered axle = t.admitAxle axle := by
      refine admitOrdered_none fun h => waitingBefore_eq_none fun y hy => ?_
      cases h
      · rw [h1] at hy
        cases hy.1
      · rw [h2] at hy
        cases hy.1
    refine ⟨fun h1 h2 => ?_, fun h1 h2 => ?_⟩
    · have hfree : clearedSlot .right s = free :=
        congrArg (fun q => { s with pairs := q }) (congrArg (PerHalf.mk · _) (emptied_slot h1).symm)
      rw [combineHalf_mate (y := r) (by rw [hl]; exact liver) (by rw [hl]; exact h1) (by rw [hl]; exact h2)
        ((mates_iff _ _ _).2 ⟨hdir, hnear⟩), HalfAxle.combine, hl]
      simp only [hcombined]
      exact (admits (clearedSlot .right s) h1 rfl).trans (congrArg (State.admitAxle axle) hfree)
    · have hfree : clearedSlot .left s = free :=
        congrArg (fun q => { s with pairs := q }) (congrArg (PerHalf.mk _) (emptied_slot h1).symm)
      have hswap : (r.leadTime - l.leadTime).toInt.natAbs ≤ s.control.params.skew := by
        rw [toInt_sub_swap (by omega), Int.natAbs_neg]
        exact hnear
      rw [combineHalf_mate (y := l) (by rw [hr]; exact livel) (by rw [hr]; exact h1) (by rw [hr]; exact h2)
        ((mates_iff _ _ _).2 ⟨hdir.symm, hswap⟩), HalfAxle.combine, hr]
      simp only [hcombined]
      exact (admits (clearedSlot .left s) rfl h1).trans (congrArg (State.admitAxle axle) hfree)
  case steps =>
    intro h mates
    refine ⟨fun hn => ?_, fun hlive => ⟨fun q hq => ?_, fun hown hn => ?_⟩⟩
    · rw [combineHalf_alone hn, hsingle]
    · rw [← hsingle]
      exact combineHalf_releases hlive hq
    · rw [combineHalf_waits hlive hown fun y hy => ?_, setHalfSlot_eq]
      refine Bool.eq_false_of_not_eq_true fun hm => hn y hy ?_
      obtain ⟨h1, h2⟩ := (mates_iff _ _ _).1 hm
      exact ⟨h1.symm, h2⟩
  case release =>
    intro closing hdue
    rw [exec_halfRelease (measuringSample_of hm heven) hx, hsingle]
    · rfl
    · cases hd : x.direction <;> simpa only [HalfAxle.releaseTime, HalfAxle.closingTime, closing, hd] using hdue
  case ordered =>
    intro early first
    refine ⟨fun hn => admitOrdered_none fun h => waitingBefore_eq_none (hn h), fun h y hy hn => ?_, fun l r hl hr => ?_⟩
    · rw [admitOrdered_one ((waitingBefore_eq_some_iff s h o.time y).2 hy) (waitingBefore_eq_none hn), hsingle]
      rfl
    · rw [admitOrdered_two ((waitingBefore_eq_some_iff s .left o.time l).2 hl)
        ((waitingBefore_eq_some_iff s .right o.time r).2 hr), hsingle, hsingle]
      refine ⟨fun hlt => if_pos hlt, fun hgt => (if_neg (by omega)).trans (if_pos hgt), fun heq => ?_⟩
      have hzero : (l.leadTime - r.leadTime).toInt = 0 := by rw [heq, BitVec.sub_self]; rfl
      rw [if_neg (by omega), if_neg (by omega)]
      split
      · exact .inl rfl
      · exact .inr rfl

end Sys2Proof.Machine.Laws
end

section
/-!
# Loads, classing and the temperature unit (chapters 03, 04 and 07)

`stage_eq` gives a stage of a strip in closed form, `isMatch_iff` the conditions of a class entry; of the
temperature unit, one lemma per phase says what the phase leaves.
-/
namespace Sys2Proof.Machine.Laws
open Sys2Proof.Machine.Safety

variable {s : State} {p : Params} {u : TempUnit}

/-! ## The load chain -/

theorem stage_eq (product divisor : Nat) :
    stage product divisor = (min 1048575 (product / divisor), decide (1048575 < product / divisor)) := by
  unfold stage
  split
  next h => rw [min_eq_left (le_of_lt h), decide_eq_true h]
  next h => rw [min_eq_right (not_lt.1 h), decide_eq_false h]

theorem stripMismatch_iff (percent lead trail : Nat) : stripMismatch percent lead trail = true ↔
    ((lead : Int) - trail).natAbs * 100 > percent * max lead trail := by
  have hdiff : absDiff lead trail = ((lead : Int) - trail).natAbs := by
    unfold absDiff
    split <;> omega
  rw [← hdiff]
  exact decide_eq_true_iff

/-- The sum of the half loads present (R42). -/
theorem loadSum_eq (a : Axle) : a.loadSum = (match a.left with | some x => x.load | none => 0) +
    match a.right with | some x => x.load | none => 0 := by
  unfold Axle.loadSum Axle.halves
  cases a.left <;> cases a.right <;> simp

theorem halves_any_iff (a : Axle) (f : HalfLoad → Bool) :
    a.halves.any f = true ↔ ∃ x, (a.left = some x ∨ a.right = some x) ∧ f x = true := by
  simp [Axle.halves, List.any_append, or_and_right, exists_or]

/-- Settles O27: each strip by `stage_eq`, the axle by the halves present. -/
theorem halfLoadFollowsChain : Obligations.HalfLoadFollowsChain := by
  intro p F C h G_l G_t limit raw comp cal strip l t limited
  have hstrip (A G : Nat) : stripLoad A h.speed G F C =
      (strip A G, decide (limit < raw A G) || decide (limit < comp A G) || decide (limit < cal A G)) := by
    unfold stripLoad
    simp only [stage_eq]
    rfl
  have hlead : leadGain p h.half = G_l := by
    show _ = match h.half with
      | .left => p.gain.ll
      | .right => p.gain.lr
    unfold leadGain
    cases h.half <;> rfl
  have htrail : trailGain p h.half = G_t := by
    show _ = match h.half with
      | .left => p.gain.tl
      | .right => p.gain.tr
    unfold trailGain
    cases h.half <;> rfl
  have hload : halfLoad p F C h = halfLoadOf p.mismatchPct l t (h.saturated ||
      (decide (limit < raw h.leadArea G_l) || decide (limit < comp h.leadArea G_l) || decide (limit < cal h.leadArea G_l)) ||
      (decide (limit < raw h.trailArea G_t) || decide (limit < comp h.trailArea G_t) ||
        decide (limit < cal h.trailArea G_t))) := by
    unfold halfLoad
    simp only [hlead, htrail, hstrip]
    rfl
  rw [hload]
  refine ⟨rfl, stripMismatch_iff _ _ _, ?_, fun A G => ?_, fun a => ?_⟩
  · have hlimited (A G : Nat) :
        (decide (limit < raw A G) || decide (limit < comp A G) || decide (limit < cal A G)) = true ↔ limited A G := by
      rw [Bool.or_eq_true, Bool.or_eq_true, decide_eq_true_eq, decide_eq_true_eq, decide_eq_true_eq, or_assoc]
    show (_ || decide (65534 < (l + t + 16) / 32)) = true ↔ _
    rw [Bool.or_eq_true, Bool.or_eq_true, Bool.or_eq_true, decide_eq_true_eq, hlimited, hlimited, or_assoc, or_assoc]
  · show 1048575 < A * h.speed * G / 2 ^ 36 ↔ _
    rw [Nat.lt_iff_add_one_le, Nat.le_div_iff_mul_le (by omega)]
    omega
  · intro part present
    refine ⟨congrArg (min 65535) (loadSum_eq a), ?_, halves_any_iff a _⟩
    have hsum : a.loadSum = part a.left + part a.right := loadSum_eq a
    show (_ || decide (65535 < a.loadSum)) = true ↔ _
    rw [Bool.or_eq_true, halves_any_iff, decide_eq_true_eq, hsum]

/-! ## Classing -/

theorem track_holds_iff (t : Track) (single : Bool) : t.holds single = true ↔
    t = .any ∨ t = .singleTrack ∧ single = true ∨ t = .twoTrack ∧ single = false := by
  cases t <;> simp [Track.holds]

theorem spacing_holds_iff {c : SpacingCondition} (hc : 1 ≤ c.index) (spacings : List Nat) : c.holds spacings = true ↔
    c.index < spacings.length + 1 ∧ ∀ x, spacings[c.index - 1]? = some x → c.least ≤ x ∧ x ≤ c.greatest := by
  unfold SpacingCondition.holds
  rw [decide_eq_true hc, Bool.true_and]
  cases hx : spacings[c.index - 1]? with
  | none =>
    have := List.getElem?_eq_none_iff.1 hx
    exact iff_of_false (by simp) fun h => by omega
  | some x =>
    obtain ⟨hlt, -⟩ := List.getElem?_eq_some_iff.1 hx
    simp only [Bool.and_eq_true, decide_eq_true_eq, Option.some.injEq, forall_eq']
    exact (and_iff_right (by omega)).symm

theorem isMatch_iff {e : ClassEntry} (hc : ∀ c ∈ e.conditions, 1 ≤ c.index) (sm : Summary) :
    e.isMatch (sm.spacings.length + 1) sm = true ↔
      e.leastAxles ≤ sm.spacings.length + 1 ∧ sm.spacings.length + 1 ≤ e.greatestAxles ∧
      (e.track = .any ∨ e.track = .singleTrack ∧ sm.singleTrack = true ∨ e.track = .twoTrack ∧ sm.singleTrack = false) ∧
      (∀ least greatest, e.gross = some (least, greatest) → least ≤ sm.gross ∧ sm.gross ≤ greatest) ∧
      ∀ c ∈ e.conditions, c.index < sm.spacings.length + 1 ∧
        ∀ x, sm.spacings[c.index - 1]? = some x → c.least ≤ x ∧ x ≤ c.greatest := by
  have hconditions : e.conditions.all (fun c => c.holds sm.spacings) = true ↔ ∀ c ∈ e.conditions,
      c.index < sm.spacings.length + 1 ∧ ∀ x, sm.spacings[c.index - 1]? = some x → c.least ≤ x ∧ x ≤ c.greatest := by
    rw [List.all_eq_true]
    exact forall₂_congr fun c h => spacing_holds_iff (hc c h) _
  unfold ClassEntry.isMatch
  simp only [Bool.and_eq_true, decide_eq_true_eq, track_holds_iff, hconditions, and_assoc]
  cases e.gross with
  | none => simp
  | some r => simp [Prod.ext_iff]

/-- Settles O39: the table is searched for the first match. -/
theorem firstMatchingEntryClasses : Obligations.FirstMatchingEntryClasses := by
  intro table n sm hn hc describes
  subst hn
  have hmatch (e : ClassEntry) (he : e ∈ table) : e.isMatch (sm.spacings.length + 1) sm = true ↔ describes e :=
    isMatch_iff (hc e he) sm
  refine ⟨fun hnone => ?_, fun inits e rest htable hbefore he => ?_⟩
  · have hnone : matchedEntry table (sm.spacings.length + 1) sm = none :=
      List.find?_eq_none.2 fun e he => mt (hmatch e he).1 (hnone e he)
    rw [hnone]
    rfl
  · have hfirst : matchedEntry table (sm.spacings.length + 1) sm = some e := by
      unfold matchedEntry
      rw [htable, List.find?_append, List.find?_eq_none.2 fun d hd => mt (hmatch d (by simp [htable, hd])).1 (hbefore d hd),
        List.find?_cons, (hmatch e (by simp [htable])).2 he]
      rfl
    rw [hfirst]
    exact ⟨rfl, rfl⟩

/-! ## The peer table -/

theorem insertValue_sorted {a : Int} {l : List Int} (h : l.Pairwise (fun x y => x ≤ y)) :
    (TempUnit.insertValue a l).Pairwise (fun x y => x ≤ y) := by
  induction l with
  | nil => exact List.pairwise_singleton _ _
  | cons b l ih =>
    obtain ⟨hb, hl⟩ := List.pairwise_cons.1 h
    unfold TempUnit.insertValue
    split
    next hab =>
      refine List.pairwise_cons.2 ⟨fun x hx => ?_, h⟩
      rcases List.mem_cons.1 hx with rfl | hx
      · exact hab
      · exact hab.trans (hb x hx)
    next hab =>
      refine List.pairwise_cons.2 ⟨fun x hx => ?_, ih hl⟩
      rcases List.mem_cons.1 ((insertValue_perm a l).mem_iff.1 hx) with rfl | hx
      · exact (not_le.1 hab).le
      · exact hb x hx

theorem sortValues_sorted (l : List Int) : (TempUnit.sortValues l).Pairwise (fun x y => x ≤ y) := by
  induction l with
  | nil => exact List.Pairwise.nil
  | cons a l ih => exact insertValue_sorted ih

theorem median_eq_none_iff (l : List Int) : TempUnit.median l = none ↔ l = [] := by
  unfold TempUnit.median
  rw [List.getElem?_eq_none_iff, (sortValues_perm l).length_eq]
  cases l with
  | nil => simp
  | cons a l =>
    simp
    omega

theorem measuring_exec_temperature {f : RxFrame} (hm : s.measuring = true) (hf : headIs f s) (hk : f.kind = .temperature)
    (hn : f.source ≠ 0) :
    exec .temperature s = .next (s.dispatched.takeTemperature f.source (temperatureValue f.payload)) := by
  show execTemperature s = _
  unfold execTemperature
  have hhead : s.headOf .temperature = some f := hk ▸ headOf_of_headIs hf hn
  rw [hhead]
  exact congrArg Host.Outcome.next (if_pos hm)

/-- Settles O29: the entry, the ageing entry by entry, and the sorted values. -/
theorem peerTableKept : Obligations.PeerTableKept := by
  refine ⟨fun s f j hm hf hk hj => ?_, fun p u => ⟨rfl, fun j => ?_, fun hv => ?_, fun hv => ?_⟩⟩
  · intro T
    rw [measuring_exec_temperature hm hf hk (by omega), hj]
    refine ⟨fun hlo hhi => congrArg _ ((if_neg (by omega)).trans ?_), fun hout => congrArg _ (if_pos hout)⟩
    exact dif_pos j.isLt
  · simp only [TempUnit.agePeers, Fin.getElem_fin, Vector.getElem_map]
    rfl
  · exact (median_eq_none_iff _).2 hv
  · exact ⟨_, sortValues_perm _, sortValues_sorted _, rfl⟩

/-! ## One probe reading -/

theorem reported_eq (f : Int) : reported f = (f + 8) / 16 := Int.fdiv_eq_ediv_of_nonneg _ (by omega)

theorem probeReading_eq {code : Nat} (hlo : 1024 ≤ code) (hhi : code ≤ 64511) (hc : p.c0 < p.c100) :
    let span : Int := (p.c100 : Int) - p.c0
    let tenths := (2000 * ((code : Int) - p.c0) + span) / (2 * span)
    probeReading p code = if -400 ≤ tenths ∧ tenths ≤ 800 then some tenths else none := by
  intro span tenths
  unfold probeReading
  rw [if_neg (by omega)]
  simp only
  rw [Int.fdiv_eq_ediv_of_nonneg _ (by omega)]
  by_cases h : -400 ≤ tenths ∧ tenths ≤ 800
  · exact (if_neg (show ¬ (tenths < -400 ∨ 800 < tenths) by omega)).trans (if_pos h).symm
  · exact (if_pos (show tenths < -400 ∨ 800 < tenths by omega)).trans (if_neg h).symm

/-- A loaded own probe takes the reading of a second (R54 to R59). -/
theorem probePhase_loaded {code : Nat} (hs : u.status = .valid ∨ u.status = .hold ∨ u.status = .stale) :
    u.probePhase p code = match probeReading p code with
      | some t =>
        if (t - u.value).natAbs ≤ p.jump then (u.acceptReading p t, false) else (u.rejectReading p t, true)
      | none => ({ u.unaccepted p with spikes := [] }, false) := by
  unfold TempUnit.probePhase
  rcases hs with h | h | h <;> rw [h] <;> rfl

theorem unaccepted_valid (h : u.status = .valid) :
    u.unaccepted p = { u with status := .hold, holdAge := 1, suspect := false } := by
  unfold TempUnit.unaccepted
  rw [h]

theorem unaccepted_hold (h : u.status = .hold) : u.unaccepted p = { u with
    holdAge := u.holdAge + 1, status := if p.holdOwn < u.holdAge + 1 then .stale else .hold } := by
  unfold TempUnit.unaccepted
  rw [h]

theorem unaccepted_stale (h : u.status = .stale) : u.unaccepted p = { u with status := .stale } := by
  unfold TempUnit.unaccepted
  rw [h]
  simp only
  rw [← h]

theorem isStep_three (jump : Nat) (a b c : Int) :
    TempUnit.isStep jump [a, b, c] = true ↔ max a (max b c) - min a (min b c) ≤ jump := by
  simp only [TempUnit.isStep, List.length_cons, List.length_nil, List.all_cons, List.all_nil, Bool.and_true,
    Bool.and_eq_true, decide_eq_true_eq]
  rw [beq_iff_eq, and_iff_right rfl]
  omega

theorem isStep_short {jump : Nat} {l : List Int} (h : l.length < 3) : TempUnit.isStep jump l = false := by
  unfold TempUnit.isStep
  rw [beq_false_of_ne (by omega), Bool.false_and]

theorem value_loaded {f : Int} (hf : u.filtered = some f) : u.value = (f + 8) / 16 := by
  unfold TempUnit.value
  rw [hf]
  exact reported_eq f

/-- An accepted reading moves the filter (R54). -/
theorem probePhase_accepts {code : Nat} {f T : Int} (hs : u.status = .valid ∨ u.status = .hold ∨ u.status = .stale)
    (hf : u.filtered = some f) (hr : probeReading p code = some T) (hj : (T - (f + 8) / 16).natAbs ≤ p.jump) :
    u.probePhase p code = ({ u with
      filtered := some (f + (T * 16 - f).tdiv (2 ^ p.filterShift : Nat)), spikes := [], holdAge := 0
      status := .valid }, false) := by
  rw [probePhase_loaded hs, hr]
  refine (if_pos (by rw [value_loaded hf]; exact hj)).trans ?_
  unfold TempUnit.acceptReading
  rw [hf]
  rfl

/-- Settles O30: the reading by its range, and the phase by the own status. -/
theorem probePhaseByStatus : Obligations.ProbePhaseByStatus := by
  intro p code u f reading span tenths T_f loaded
  refine ⟨fun h => if_pos h, fun hlo hhi hc => probeReading_eq hlo hhi hc, fun hs => ?_, fun hs hr => ?_,
    fun T hs hr => ?_, fun hs hf => ?_⟩
  · unfold TempUnit.probePhase
    rw [hs]
  · unfold TempUnit.probePhase
    rw [hs]
    simp only [show probeReading p code = none from hr]
  · unfold TempUnit.probePhase
    rw [hs]
    simp only [show probeReading p code = some T from hr]
    rfl
  · intro missed
    have hvalue : u.value = T_f := value_loaded hf
    have hmissed (l : List Int) : { u.unaccepted p with spikes := l } = missed l := by
      show _ = match u.status with
        | .valid => { u with spikes := l, status := .hold, holdAge := 1, suspect := false }
        | .hold => { u with
            spikes := l, holdAge := u.holdAge + 1
            status := if p.holdOwn < u.holdAge + 1 then .stale else .hold }
        | _ => { u with spikes := l }
      rcases hs with h | h | h
      · rw [unaccepted_valid h, h]
      · rw [unaccepted_hold h, h]
      · rw [unaccepted_stale h, h]
    have rejects {T : Int} (hr : reading = some T) (hj : p.jump < (T - T_f).natAbs) :
        u.probePhase p code = (u.rejectReading p T, true) := by
      rw [probePhase_loaded hs, show probeReading p code = some T from hr]
      exact if_neg (by rw [hvalue]; omega)
    refine ⟨fun hr => ?_, fun T hr hj => probePhase_accepts hs hf hr hj, fun T hr hj hl => ?_,
      fun T A B rest hr hj hl => ?_⟩
    · rw [probePhase_loaded hs, show probeReading p code = none from hr]
      exact congrArg (Prod.mk · false) (hmissed [])
    · rw [rejects hr hj]
      unfold TempUnit.rejectReading
      have hjoin : TempUnit.joinSpikes T u.spikes = u.spikes ++ [T] := if_neg (by omega)
      have hshort : TempUnit.isStep p.jump (u.spikes ++ [T]) = false := isStep_short (by simp; omega)
      simp only [hjoin, hshort, Bool.false_eq_true, if_false]
      exact congrArg (Prod.mk · true) (hmissed _)
    · have hjoin : TempUnit.joinSpikes T u.spikes = [A, B, T] ∧ rest = [A, B] := by
        rcases hl with ⟨h, hrest⟩ | ⟨C, h, hrest⟩ <;> rw [h] <;> exact ⟨rfl, hrest⟩
      rw [rejects hr hj, hjoin.2]
      unfold TempUnit.rejectReading
      simp only [hjoin.1, isStep_three]
      split
      · rfl
      · exact congrArg (Prod.mk · true) (hmissed _)

/-! ## The choice -/

/-- The SUSPECT decision (R60). -/
theorem decideSuspect_false (h : u.status ≠ .valid ∨ (u.freshValues p).length < 2 ∨
    ∃ m, TempUnit.median (u.freshValues p) = some m ∧ (u.value - m).natAbs ≤ p.disagree) :
    u.decideSuspect p = { u with suspect := false } := by
  unfold TempUnit.decideSuspect
  refine congrArg (fun b => { u with suspect := b }) ?_
  rcases h with h | h | ⟨m, hm, h⟩
  · simp [h]
  · simp [h]
  · simp only [hm]
    simp [h]

theorem decideSuspect_true {m : Int} (hs : u.status = .valid) (hn : 2 ≤ (u.freshValues p).length)
    (hm : TempUnit.median (u.freshValues p) = some m) (h : p.disagree < (u.value - m).natAbs) :
    u.decideSuspect p = { u with suspect := true } := by
  unfold TempUnit.decideSuspect
  refine congrArg (fun b => { u with suspect := b }) ?_
  simp only [hm, hs]
  simp [hn, h]

/-- A temperature obtained from the probe or the peers is held at once (R64, R65). -/
theorem choose_obtained {b : Bool} {T : Int} {source : Source} (hs : u.decideSuspect p = { u with suspect := b })
    (ho : ({ u with suspect := b } : TempUnit).obtained p = some (T, source)) :
    u.choose p = ({ u with suspect := b, held := some T, heldAge := 0 }, T, source) := by
  unfold TempUnit.choose
  simp only [hs, ho]

theorem obtained_own {v : TempUnit} (hs : v.status = .valid) (hn : v.suspect = false) :
    v.obtained p = some (v.value, .own) := if_pos ⟨hs, hn⟩

theorem obtained_peer {v : TempUnit} {m : Int} (hs : ¬ (v.status = .valid ∧ v.suspect = false))
    (hm : TempUnit.median (v.freshValues p) = some m) : v.obtained p = some (m, .peer) := by
  unfold TempUnit.obtained
  simp only [if_neg hs, hm]

theorem obtained_ownHeld {v : TempUnit} (hs : v.status = .hold) (hn : v.freshValues p = []) :
    v.obtained p = some (v.value, .ownHeld) := by
  unfold TempUnit.obtained
  simp only [(median_eq_none_iff _).2 hn, hs]
  simp

theorem obtained_none {v : TempUnit} (hv : v.status ≠ .valid) (hh : v.status ≠ .hold) (hn : v.freshValues p = []) :
    v.obtained p = none := by
  unfold TempUnit.obtained
  simp only [(median_eq_none_iff _).2 hn]
  simp [hv, hh]

/-- Past case (c) the held value stays in use up to its age, and the default follows it (R64, R65). -/
theorem choose_falls_held {b : Bool} {T : Int} (hs : u.decideSuspect p = { u with suspect := b })
    (ho : ({ u with suspect := b } : TempUnit).obtained p = none) (hT : u.held = some T)
    (hage : u.heldAge + 1 ≤ p.holdEff) :
    u.choose p = ({ u with suspect := b, heldAge := min (p.holdEff + 1) (u.heldAge + 1) }, T, .held) := by
  unfold TempUnit.choose
  simp only [hs, ho, TempUnit.nextHeldAge]
  split
  next t h =>
    cases hT.symm.trans h
    exact if_pos (by omega)
  next h =>
    rw [hT] at h
    cases h

theorem choose_falls_default {b : Bool} (hs : u.decideSuspect p = { u with suspect := b })
    (ho : ({ u with suspect := b } : TempUnit).obtained p = none)
    (hout : u.held = none ∨ p.holdEff < u.heldAge + 1) : u.choose p =
      ({ u with suspect := b, heldAge := min (p.holdEff + 1) (u.heldAge + 1) }, p.tempDefault, .default) := by
  unfold TempUnit.choose
  simp only [hs, ho, TempUnit.nextHeldAge]
  split
  next t h =>
    have hage : p.holdEff < u.heldAge + 1 := hout.resolve_left (by rw [h]; simp)
    exact if_neg (by omega)
  next => rfl

/-- Settles O31: the SUSPECT decision, and then the first of the cases that holds. -/
theorem effectiveTemperatureByCases : Obligations.EffectiveTemperatureByCases := by
  intro p u fresh T_f away got fell
  have hvalue : u.value = T_f := reported_eq _
  have hnear {m : Int} (h : ¬ away m) : (u.value - m).natAbs ≤ p.disagree := by
    rw [hvalue]
    exact not_lt.1 h
  have own (hs : u.status = .valid) (hd : u.decideSuspect p = { u with suspect := false }) :
      u.choose p = got false T_f .own := by
    rw [choose_obtained hd (obtained_own hs rfl), ← hvalue]
    rfl
  have falls (hv : u.status ≠ .valid) (hh : u.status ≠ .hold) (hn : fresh = 0) :
      ({ u with suspect := false } : TempUnit).obtained p = none :=
    obtained_none hv hh (List.length_eq_zero_iff.1 hn)
  refine ⟨fun hs hn => own hs (decideSuspect_false (.inr (.inl hn))),
    fun m hs hn hm ha => own hs (decideSuspect_false (.inr (.inr ⟨m, hm, hnear ha⟩))),
    fun m hs hn hm ha => choose_obtained (decideSuspect_true hs hn hm (by rw [hvalue]; exact ha))
      (obtained_peer (by simp) hm),
    fun m hs hn hm => choose_obtained (decideSuspect_false (.inl hs)) (obtained_peer (fun h => hs h.1) hm),
    fun hs hn => ?_, fun T hv hh hn ht hage => ?_, fun hv hh hn hout => ?_⟩
  · rw [choose_obtained (decideSuspect_false (.inl (by simp [hs])))
      (obtained_ownHeld (v := { u with suspect := false }) hs (List.length_eq_zero_iff.1 hn)), ← hvalue]
    rfl
  · exact choose_falls_held (decideSuspect_false (.inl hv)) (falls hv hh hn) ht hage
  · exact choose_falls_default (decideSuspect_false (.inl hv)) (falls hv hh hn) hout

/-! ## The temperature second -/

theorem bandIndex_eq (base : Int) (width : Nat) (t : Int) :
    (bandIndex base width t : Int) = max 0 (min 7 ((t - base) / width)) := by
  unfold bandIndex
  rw [clampInt_eq (by omega), Int.fdiv_eq_ediv_of_nonneg _ (Int.natCast_nonneg width)]
  omega

/-- The temperature band is the quotient of R46, held to 0..7. -/
theorem tempBand_eq (base : Int) (width : Nat) (t : Int) :
    ((tempBand base width t).val : Int) = max 0 (min 7 ((t - base) / width)) := by
  have hi := bandIndex_eq base width t
  unfold tempBand
  rw [Fin.val_ofNat, Nat.mod_eq_of_lt (by omega), hi]

theorem tempBand_eq_iff {width : Nat} (hw : 1 ≤ width) (base T : Int) (b : Fin 8) : tempBand base width T = b ↔
    (b = 0 ∨ base + b.val * width ≤ T) ∧ (b = 7 ∨ T < base + (b.val + 1) * width) := by
  have hlo : (b.val : Int) ≤ (T - base) / width ↔ base + b.val * width ≤ T := by
    rw [Int.le_ediv_iff_mul_le (by omega)]
    omega
  have hhi : (T - base) / width < (b.val : Int) + 1 ↔ T < base + (b.val + 1) * width := by
    rw [Int.ediv_lt_iff_lt_mul (by omega)]
    omega
  have hb := tempBand_eq base width T
  rw [Fin.ext_iff, Fin.ext_iff, Fin.ext_iff, ← hlo, ← hhi]
  show _ ↔ (b.val = 0 ∨ _) ∧ (b.val = 7 ∨ _)
  omega

theorem noticeDue_iff (p : Params) (running : Bool) (u : TempUnit) : u.noticeDue p running = true ↔
    running = true ∧ u.status = .valid ∧ u.suspect = false ∧ ∀ n, u.sinceNotice = some n → p.noticePeriod ≤ n + 1 := by
  unfold TempUnit.noticeDue
  cases u.sinceNotice <;> simp [and_assoc]

/-- A second without a notice (R50). -/
theorem takeSecond_quiet {code : BitVec 16} {r : TempUnit × Bool} {c : TempUnit × Int × Source}
    (hr : s.temp.probePhase s.control.params code.toNat = r) (hc : r.1.agePeers.choose s.control.params = c)
    (hn : c.1.noticeDue s.control.params (s.control.station = .running) = false) : s.takeSecond code = { s with
      temp := { c.1 with
        sinceNotice := c.1.sinceNotice.map (fun n => n + 1)
        secondDue := s.temp.secondDue.map (fun t => t + 16384) }
      counters := if r.2 then counted 9 s.counters else s.counters
      assembler := { s.assembler with handover := handoverOf s.control.params c.2.1 c.2.2 } } := by
  unfold State.takeSecond
  simp only [hr, hc, hn]
  cases r.2 <;> rfl

/-- A second with a notice that stands alone in its queue (R50, R67). -/
theorem takeSecond_notices {code : BitVec 16} {r : TempUnit × Bool} {c : TempUnit × Int × Source}
    (hr : s.temp.probePhase s.control.params code.toNat = r) (hc : r.1.agePeers.choose s.control.params = c)
    (hn : c.1.noticeDue s.control.params (s.control.station = .running) = true)
    (hst : s.control.station = .running) (hq : s.link.transmitQueue = []) (ht : s.link.transmitter = .idle) :
    s.takeSecond code = { s with
      temp := { c.1 with
        sinceNotice := some 0
        secondDue := s.temp.secondDue.map (fun t => t + 16384) }
      counters := if r.2 then counted 9 s.counters else s.counters
      link := { s.link with transmitQueue := queued (.temperature c.1.value), transmitter := .waitIdle }
      assembler := { s.assembler with handover := handoverOf s.control.params c.2.1 c.2.2 } } := by
  have alone (u : TempUnit) (v : Vector Nat 16) : ({ s with temp := u, counters := v } : State).produce
      (.temperature c.1.value) = { s with
        temp := u, counters := v
        link := { s.link with transmitQueue := queued (.temperature c.1.value), transmitter := .waitIdle } } :=
    produce_alone (s := { s with temp := u, counters := v }) (.inl hst) hq ht
  unfold State.takeSecond
  simp only [hr, hc, hn, if_true]
  cases r.2
  · simp only [Bool.false_eq_true, if_false, alone]
    rfl
  · simp only [if_true, bump_eq, alone]
    rfl

theorem exec_temperatureSecond {due : LocalTime} (hm : s.measuring = true) (hdue : s.temp.secondDue = some due)
    (hpassed : 0 ≤ (s.localTime - due).toInt) (code : BitVec 16) :
    exec (.temperatureSecond code) s = .next (s.takeSecond code) := by
  refine congrArg Host.Outcome.next (if_pos ?_)
  rw [State.secondIsDue, hm, (dueReached_iff _ _).2 ⟨due, hdue, hpassed⟩]
  rfl

/-- With no peer present the table is as it was. -/
theorem agePeers_absent (h : ∀ j : Fin 15, u.peers[j].present = false) : u.agePeers = u := by
  have hpeers : u.peers.map TempUnit.agePeer = u.peers := by
    refine Vector.ext fun i hi => ?_
    rw [Vector.getElem_map, TempUnit.agePeer, if_neg]
    simpa using h ⟨i, hi⟩
  unfold TempUnit.agePeers
  rw [hpeers]

theorem freshValues_absent (h : ∀ j : Fin 15, u.peers[j].present = false) : u.freshValues p = [] := by
  refine List.map_eq_nil_iff.2 (List.filter_eq_nil_iff.2 fun e he => ?_)
  obtain ⟨i, hi, rfl⟩ := List.getElem_of_mem he
  have := h ⟨i, by simpa using hi⟩
  simp_all

/-- A VALID own probe beside no peer gives the own value (R64). -/
theorem choose_own (h : ∀ j : Fin 15, u.peers[j].present = false) (hs : u.status = .valid) :
    u.agePeers.choose p = ({ u with suspect := false, held := some u.value, heldAge := 0 }, u.value, .own) := by
  rw [agePeers_absent h]
  exact choose_obtained (decideSuspect_false (.inr (.inl (by rw [freshValues_absent h]; exact Nat.zero_lt_two))))
    (obtained_own hs rfl)

/-- Settles O32: the band by its quotient, and the second with its notice or without. -/
theorem temperatureSecondRuns : Obligations.TemperatureSecondRuns := by
  refine ⟨fun base T width b hw => ⟨tempBand_eq base width T, tempBand_eq_iff hw base T b⟩,
    fun s code due hm hdue hpassed => ?_⟩
  intro p handover r c u noticed
  have hsecond : s.temp.secondDue.map (fun t => t + 16384) = some (due + 16384) := by
    rw [hdue]
    rfl
  have hnoticed : u.noticeDue p (s.control.station = .running) = true ↔ noticed :=
    (noticeDue_iff _ _ _).trans (and_congr_left' decide_eq_true_iff)
  refine ⟨fun hq ht => ?_, fun f T n hst hs hf hr hj hpeers hn hperiod => ?_⟩
  · rw [exec_temperatureSecond hm hdue hpassed]
    by_cases h : noticed
    · rw [takeSecond_notices rfl rfl (hnoticed.2 h) h.1 hq ht, if_pos h, if_pos h, hsecond]
      simp only [TempUnit.value, reported_eq]
      rfl
    · rw [takeSecond_quiet rfl rfl (Bool.eq_false_of_not_eq_true (mt hnoticed.1 h)), if_neg h, if_neg h, hsecond]
      rfl
  · intro f' T'
    have hprobe := probePhase_accepts hs hf hr hj
    have hchoose := choose_own (p := p) hpeers
      (u := { s.temp with filtered := some f', spikes := [], holdAge := 0, status := .valid }) rfl
    rw [value_loaded (f := f') rfl] at hchoose
    rw [exec_temperatureSecond hm hdue hpassed, takeSecond_quiet hprobe hchoose, hsecond]
    · simp only [hn]
      rfl
    · refine Bool.eq_false_of_not_eq_true fun h => ?_
      exact absurd (((noticeDue_iff _ _ _).1 h).2.2.2 n hn) (not_le.2 hperiod)

end Sys2Proof.Machine.Laws
end

section
/-!
# The loop, the gap timer and the completion operation (chapter 05)

The end of a vehicle goes through the laws of `endOpen` and `closeTest`, on the vehicle with its gap due mark set
(`takeGapMark_eq`, `closeMet_eq_false_iff`).
-/
namespace Sys2Proof.Machine.Laws
open Sys2Proof.Machine.Safety

variable {s : State} {v : Vehicle}

/-! ## The loop -/

theorem separate_eq (t : LocalTime) (v : Vehicle) : State.separate t v =
    if v.separation = none ∧ (v.lastTime - t).toInt < 0 then { v with separation := some t } else v := by
  unfold State.separate
  by_cases h : v.separation = none ∧ (v.lastTime - t).toInt < 0
  · rw [if_pos h, if_pos]
    rw [Bool.and_eq_true, Option.isNone_iff_eq_none, decide_eq_true_eq]
    exact h
  · rw [if_neg h, if_neg]
    rw [Bool.and_eq_true, Option.isNone_iff_eq_none, decide_eq_true_eq]
    exact h

/-- Settles O33: the transition by the qualified state before it. -/
theorem loopTransitionSeparates : Obligations.LoopTransitionSeparates := by
  intro s hm heven hfitted l hcount settled
  have hdue (hq : l.qualified ≠ some l.level) : exec .loopTransition s = .next s.takeLoop :=
    congrArg Host.Outcome.next (if_pos ((loopIsDue_iff s).2 ⟨measuringSample_of hm heven, hfitted, hcount, hq⟩))
  refine ⟨fun v hq hlevel hv => ?_, fun hq => ?_, fun hq => ?_⟩
  · rw [hdue (by rw [hq, hlevel]; simp)]
    have hcleared : (l.qualified.isSome && !l.level) = true := by simp [hq, hlevel]
    unfold State.takeLoop
    simp only [show s.assembler.loop = l from rfl, hcleared, hv, if_true, Option.map_some, separate_eq]
    rfl
  · have hcleared : (l.qualified.isSome && !l.level) = false := by
      rcases hq with h | ⟨h, h'⟩
      · simp [h]
      · simp [h']
    rw [hdue (by rcases hq with h | ⟨h, h'⟩ <;> simp [*])]
    unfold State.takeLoop
    simp only [show s.assembler.loop = l from rfl, hcleared]
    rfl
  · refine congrArg Host.Outcome.next (if_neg fun h => ?_)
    exact ((loopIsDue_iff s).1 h).2.2.2 hq

/-! ## The completion operation -/

theorem recordedSpacings_length (S : Nat) (l : List Axle) (h : 1 ≤ l.length) :
    (recordedSpacings S l).length + 1 = l.length := by
  induction l with
  | nil => simp at h
  | cons a l ih =>
    cases l with
    | nil => rfl
    | cons b l => simpa [recordedSpacings] using ih (by simp)

theorem recordedSpacings_le (S : Nat) (l : List Axle) : ∀ x ∈ recordedSpacings S l, x ≤ S := by
  induction l with
  | nil => simp [recordedSpacings]
  | cons a l ih =>
    cases l with
    | nil => simp [recordedSpacings]
    | cons b l =>
      intro x hx
      rcases List.mem_cons.1 hx with rfl | hx
      · exact min_le_left _ _
      · exact ih x hx

theorem recordedSpacings_getElem (S : Nat) (l : List Axle) (i : Nat) (a b : Axle) (ha : l[i]? = some a)
    (hb : l[i + 1]? = some b) : (recordedSpacings S l)[i]? =
      some (min S (((a.speed + b.speed : Nat) : Int) * (b.time - a.time).toInt / 32768).toNat) := by
  induction l generalizing i with
  | nil => simp at ha
  | cons c l ih =>
    cases l with
    | nil => simp at hb
    | cons d l =>
      cases i with
      | zero =>
        cases ha
        cases hb
        simp only [recordedSpacings, List.getElem?_cons_zero, spacingOf, sdiff]
        rw [Int.fdiv_eq_ediv_of_nonneg _ (by omega)]
      | succ i => exact ih i ha hb

theorem isUnsteady_iff {percent : Nat} {l : List Axle} {first last : Axle} (hf : l.head? = some first)
    (hl : l.getLast? = some last) : isUnsteady percent l = true ↔
      ((first.speed : Int) - last.speed).natAbs * 100 > percent * max first.speed last.speed := by
  unfold isUnsteady
  rw [hf, hl]
  exact stripMismatch_iff percent first.speed last.speed

/-- An axle of one local half (R84). -/
theorem single_local_iff (a : Axle) : (a.single && !a.straddled) = true ↔
    (∃ l, a.left = some l ∧ a.right = none ∧ l.remote = false) ∨
      ∃ l, a.right = some l ∧ a.left = none ∧ l.remote = false := by
  unfold Axle.single Axle.loneHalf Axle.straddled Axle.halves
  cases a.left <;> cases a.right <;> simp

theorem axle_load_le (a : Axle) : a.load ≤ 65535 := min_le_left _ _

/-- Settles O37: the parts of the operation, and the record field by field. -/
theorem completionFormsRecord : Obligations.CompletionFormsRecord := by
  intro s v hpos hfew p sm flags entry verdict triggered drifted r
  have hloads : r.axles.map RecordAxle.load = v.axles.map Axle.load := List.map_map
  refine ⟨rfl, fun first last hf hl => isUnsteady_iff hf hl, ?_, rfl, rfl, rfl, rfl, rfl, rfl, rfl, rfl, rfl, rfl, rfl,
    fun a => ⟨rfl, rfl, rfl, ?_, ?_, decide_eq_true_iff, halves_any_iff a _⟩, ?_, recordedSpacings_le _ _, ?_, ?_, rfl,
    rfl, fun i a b ha hb _ => recordedSpacings_getElem _ _ i a b ha hb⟩
  · show v.axles.all (fun a => a.single && !a.straddled) = true ↔ _
    rw [List.all_eq_true]
    exact forall₂_congr fun a _ => single_local_iff a
  · exact Option.isSome_iff_ne_none
  · exact Option.isSome_iff_ne_none
  · show (recordedSpacings _ v.axles).length + 1 = (v.axles.map Axle.entry).length
    rw [List.length_map, recordedSpacings_length _ _ hpos]
  · rw [hloads]
    rfl
  · have hsum := List.sum_le_card_nsmul (v.axles.map Axle.load) 65535 fun x hx => by
      obtain ⟨a, -, rfl⟩ := List.mem_map.1 hx
      exact axle_load_le a
    rw [List.length_map, smul_eq_mul] at hsum
    show (v.axles.map Axle.load).sum ≤ 786420
    omega

/-! ## The gap timer -/

theorem takeGapMark_eq (p : Params) (now : LocalTime) (v : Vehicle) : v.takeGapMark p now = { v with
    gapDueMark := true
    holdDue := if v.pairing = .owner ∧ v.yieldClosed = false ∧ v.flags.partnerLost = false then
      some (now + BitVec.ofNat 32 (p.yieldHold * 16384 / 1000)) else v.holdDue } := by
  unfold Vehicle.takeGapMark
  have hwaits : (v.pairing = .owner && !v.yieldClosed && !v.flags.partnerLost) = true ↔
      v.pairing = .owner ∧ v.yieldClosed = false ∧ v.flags.partnerLost = false := by simp [and_assoc]
  by_cases h : v.pairing = .owner ∧ v.yieldClosed = false ∧ v.flags.partnerLost = false
  · rw [if_pos h, if_pos (hwaits.2 h)]
  · rw [if_neg h, if_neg (mt hwaits.1 h)]

/-- With its gap due mark an OWNER vehicle closes unless it still waits for its partner (R108). -/
theorem closeMet_eq_false_iff {w : Vehicle} (hm : w.gapDueMark = true) :
    w.ownerCloseMet = false ↔ w.yieldClosed = false ∧ w.flags.partnerLost = false := by
  simp [Vehicle.ownerCloseMet, hm]

/-- The gap timer of the vehicle in a slot (R82). -/
theorem exec_gapTimer {k : Slot} (hm : s.measuring = true) (heven : s.localTime.toNat % 2 = 0)
    (hk : s.vehicleIn k = some v) (hmark : v.gapDueMark = false) (hdue : 0 ≤ (s.localTime - v.gapDue).toInt)
    (hwait : ∀ x, s.pairs.left.slot = some x ∨ s.pairs.right.slot = some x → 0 ≤ (x.leadTime - v.gapDue).toInt) :
    exec (.gapTimer k) s = .next (s.takeGap k v) := by
  have hgap : s.gapVehicle k = some v := by
    unfold State.gapVehicle
    rw [if_pos (measuringSample_of hm heven), hk]
    refine Option.filter_eq_some_iff.2 ⟨rfl, ?_⟩
    rw [hmark, (reached_iff _ _).2 hdue, (halfWaitsBefore_eq_false_iff _ _).2 hwait]
    rfl
  show execGapTimer k s = _
  unfold execGapTimer
  rw [hgap]

/-- Completion with the trigger stage, the overload line and tracking off: the record alone (R84 to R86). -/
theorem complete_plain (hst : s.control.station = .running) (hq : s.link.transmitQueue = [])
    (ht : s.link.transmitter = .idle) (hcamera : s.control.params.camera = 0)
    (htracking : s.control.params.tracking = false) (hmode : s.control.params.overloadMode = .off) (v : Vehicle) :
    let p := s.control.params
    let sm := summarize p v.axles
    let entry := matchedEntry p.classTable v.axles.length sm
    s.complete v = { s with
      counters := counted 4 s.counters
      output := { s.output with overload := false }
      link := { s.link with
        transmitQueue := queued (.vehicle (v.record p (v.summaryFlags sm) (classCode entry)
          (screen p entry (v.summaryFlags sm) v.axles sm) sm))
        transmitter := .waitIdle } } := by
  intro p sm entry
  have hreference (flags : Flags) : isReference p v.axles flags (classCode entry) sm = false := by
    simp [isReference, p, htracking]
  have htrigger (flags : Flags) (verdict : Verdict) : s.scheduleTrigger v flags verdict = (flags, s) :=
    if_neg (by simp [hcamera])
  have hverdict (verdict : Verdict) : s.takeVerdict verdict = { s with output := { s.output with overload := false } } := by
    unfold State.takeVerdict
    rw [hmode]
    rfl
  have hdrift (flags : Flags) (t : State) (h : t.control.params = p) :
      t.driftStage v flags (classCode entry) sm = t := if_neg (by rw [h, hreference]; exact Bool.false_ne_true)
  unfold State.complete
  simp only [htrigger, hverdict]
  rw [hdrift (v.summaryFlags sm) { s with output := { s.output with overload := false } } rfl]
  exact produce_alone (s := State.bump .recordsProduced { s with output := { s.output with overload := false } })
    (.inl hst) hq ht

/-- Settles O34: the vehicle takes its mark, and then ends, or is tested for its close. -/
theorem gapTimerEndsVehicle : Obligations.GapTimerEndsVehicle := by
  intro s v hst heven hmark hdue hwait p edge sm flags entry waits marked openIs closingIs yields
  have hm : s.measuring = true := (measuring_iff s).2 (.inl hst)
  have hmarked : v.takeGapMark s.control.params s.localTime = marked := takeGapMark_eq _ _ _
  have hclose : marked.ownerCloseMet = false ↔ waits := closeMet_eq_false_iff rfl
  have hclose' : ¬ waits → marked.ownerCloseMet = true := fun h => by
    rw [← Bool.not_eq_false, hclose]
    exact h
  refine ⟨fun hv => ?openSlot, fun hv => ?closingSlot⟩
  case openSlot =>
    have hexec : exec (.gapTimer .openSlot) s = .next (s.setSlot .openSlot (some marked)).endOpen := by
      rw [exec_gapTimer (k := .openSlot) hm heven hv hmark hdue hwait, ← hmarked]
      rfl
    have hedge : (s.setSlot .openSlot (some marked)).hasEdge marked.number = true ↔ edge := hasEdge_iff s v.number
    have hedge' (h : ¬ edge) : (s.setSlot .openSlot (some marked)).hasEdge marked.number = false :=
      Bool.eq_false_of_not_eq_true (mt hedge.1 h)
    have hends (h : ¬ edge) (hp : v.pairing = .unpaired ∨ v.pairing = .owner ∧ ¬ waits) :
        exec (.gapTimer .openSlot) s = .next ((openIs none).complete marked) := by
      rw [hexec, endOpen_completes rfl (hedge' h), setSlot_setSlot]
      · rfl
      · rcases hp with hp | ⟨hp, -⟩ <;> simp [marked, hp]
      · intro howner
        rcases hp with hp | ⟨-, hw⟩
        · rw [show marked.pairing = .unpaired from hp] at howner
          cases howner
        · exact hclose' hw
    refine ⟨fun hempty hheld => ?_, hends, fun h hp => ?_, fun h hp hcamera htracking hmode hq ht => ?_⟩
    · rw [hexec, endOpen_holds rfl, setSlot_setSlot, enterClosing_empty (by exact hempty)]
      · rfl
      · rcases hheld with h | ⟨hp, hw⟩
        · exact .inl (hedge.2 h)
        · exact .inr (.inl ⟨hp, hclose.2 hw⟩)
    · rw [hexec, endOpen_yields rfl (hedge' h) hp rfl, setSlot_setSlot]
      rfl
    · rw [hends h (.inl hp)]
      exact congrArg Host.Outcome.next
        (complete_plain (s := openIs none) hst hq ht hcamera htracking hmode marked)
  case closingSlot =>
    have hexec : exec (.gapTimer .closingSlot) s = .next (s.setSlot .closingSlot (some marked)).closeTest := by
      rw [exec_gapTimer (k := .closingSlot) hm heven hv hmark hdue hwait, ← hmarked]
      rfl
    have hedge : (s.setSlot .closingSlot (some marked)).hasEdge marked.number = true ↔ edge := hasEdge_iff s v.number
    have hedge' (h : ¬ edge) : (s.setSlot .closingSlot (some marked)).hasEdge marked.number = false :=
      Bool.eq_false_of_not_eq_true (mt hedge.1 h)
    refine ⟨fun hheld => ?_, fun h hp hw => ?_, fun h hp => ?_⟩
    · rw [hexec, closeTest_stays rfl]
      · rfl
      · rcases hheld with h | ⟨hp, hw⟩
        · exact .inl (hedge.2 h)
        · exact .inr (.inl ⟨hp, hclose.2 hw⟩)
    · rw [hexec, closeTest_completes rfl (hedge' h) (.inr ⟨hp, hclose' hw⟩), setSlot_setSlot]
      rfl
    · rw [hexec, closeTest_yields rfl (hedge' h) hp rfl, setSlot_setSlot]
      rfl

end Sys2Proof.Machine.Laws
end

section
/-!
# Axles in the open vehicle (chapter 05)

`openWith_places` and `placeOpen_places` say what vehicle stands after an axle opens or joins one; what follows its placement is
`afterPlacement_places`. The end of the vehicle before goes through the laws of `endOpen`.
-/
namespace Sys2Proof.Machine.Laws
open Sys2Proof.Machine.Safety

variable {s t : State} {v : Vehicle} {o : Observation}

/-! ## Opening and joining -/

/-- The gap due time of an axle (R81). -/
def gapDueOf (p : Params) (o : Observation) : LocalTime :=
  o.time + BitVec.ofNat 32 ((p.maxSpacing + p.spacing) * 16384 / o.speed)

/-- The first axle of the vehicle that an observation opens (R43, R72). -/
def firstAxle (p : Params) (latched : Handover) (correction : Nat) (o : Observation) : Axle :=
  loadedWith p latched.factor correction 0 1 o

/-- The vehicle that an observation opens, with its first axle (R71, R72, R79, R81, R83). -/
def openedVehicle (p : Params) (latched : Handover) (correction number : Nat) (defaulted continuation : Bool)
    (o : Observation) : Vehicle :=
  let first := firstAxle p latched correction o
  { number := number
    pairing := .unpaired, peer := 0, peerVehicle := 0, yieldClosed := false, received := 0
    forwarded := 0, holdDue := none
    direction := o.direction, latched := latched, correction := correction
    axles := [first], nextTag := 1, lastTime := o.time, lastSpeed := o.speed
    separation := none, gapDue := gapDueOf p o, gapDueMark := false
    flags := { Flags.none with
      mismatch := first.mismatch, saturated := first.saturated
      wrongWay := o.direction = .reverse
      tempHeld := latched.source = .ownHeld || latched.source = .held
      tempDefault := latched.source = .default
      correctionDefault := defaulted, continuation := continuation } }

theorem ofSource_eq (c : Source) : Flags.ofSource c =
    { Flags.none with tempHeld := c = .ownHeld || c = .held, tempDefault := c = .default } := by
  cases c <;> rfl

/-- An axle goes to its place in the open vehicle, which then stands in its slot (R77, R78). -/
theorem placeOpen_places {w : Vehicle} (n : Nat) (latest : Bool) (o : Observation)
    (hw : (if latest then (v.placeAt s.control.params n o).becomeLatest s.control.params o.time o.speed
      else v.placeAt s.control.params n o) = w) :
    AfterPlacing w (loadedWith s.control.params v.latched.factor v.correction v.nextTag (n + 1) o)
      { s with assembler := { s.assembler with openVehicle := some w } } (s.placeOpen n latest o v) := by
  unfold State.placeOpen
  simp only [hw]
  exact afterPlacement_places rfl _

/-- An observation opens a vehicle of the next number, which latches what is handed over and the band's correction (R71,
R72). -/
theorem openWith_places {p : Params} {latched : Handover} {last : Nat} {defaulted : Bool} (hp : s.control.params = p)
    (hh : s.assembler.handover = latched) (hn : s.assembler.lastNumber = last) (hd : s.drift.defaulted = defaulted)
    (o : Observation) (continuation : Bool) :
    AfterPlacing
      (openedVehicle p latched s.drift.bands[latched.band].correction ((last + 1) % 65536) defaulted continuation o)
      (firstAxle p latched s.drift.bands[latched.band].correction o)
      { s with assembler := { s.assembler with
        lastNumber := (last + 1) % 65536
        openVehicle := some (openedVehicle p latched s.drift.bands[latched.band].correction ((last + 1) % 65536) defaulted
          continuation o) } }
      (s.openWith o continuation) := by
  subst hp hh hn hd
  refine placeOpen_places (s := { s with assembler := { s.assembler with
    lastNumber := (s.assembler.lastNumber + 1) % 65536 } }) (v := newVehicle s o continuation) 0 true o ?_
  unfold newVehicle
  simp only [ofSource_eq]
  rfl

theorem joins_iff (p : Params) (o : Observation) (v : Vehicle) : v.joins p o = true ↔ o.direction = v.direction ∧
    ((v.lastSpeed + o.speed : Nat) : Int) * (o.time - v.lastTime).toInt / 32768 ≤ p.maxSpacing ∧
    (p.loopFitted = true → ∀ t, v.separation = some t → (o.time - t).toInt < 0) := by
  unfold Vehicle.joins spacingOf
  rw [Int.fdiv_eq_ediv_of_nonneg _ (by omega)]
  cases p.loopFitted <;> cases v.separation <;> simp [and_assoc]

/-- An axle at or after t_last that fills no transferred axle joins, or ends the vehicle and opens the next (R77, R79). -/
theorem admitAxle_joins (hv : s.assembler.openVehicle = some v) (hnone : v.localMergeTarget s.control.params o = none)
    (hlater : 0 ≤ (o.time - v.lastTime).toInt) (hj : v.joins s.control.params o = true) (hroom : v.axles.length < 12) :
    s.admitAxle o = (s.bump .axlesAdmitted).placeOpen v.axles.length true o v := by
  unfold State.admitAxle State.placeAxle
  rw [show (s.bump .axlesAdmitted).assembler.openVehicle = some v from hv]
  simp only
  rw [show v.localMergeTarget (s.bump .axlesAdmitted).control.params o = none from hnone]
  exact (if_pos ((reached_iff _ _).2 hlater)).trans ((if_pos hj).trans (if_pos hroom))

theorem admitAxle_full (hv : s.assembler.openVehicle = some v) (hnone : v.localMergeTarget s.control.params o = none)
    (hlater : 0 ≤ (o.time - v.lastTime).toInt) (hj : v.joins s.control.params o = true) (hfull : v.axles.length = 12) :
    s.admitAxle o = (((s.bump .axlesAdmitted).flagOpen
      fun f => { f with truncated := true }).endOpen).openWith o true := by
  unfold State.admitAxle State.placeAxle
  rw [show (s.bump .axlesAdmitted).assembler.openVehicle = some v from hv]
  simp only
  rw [show v.localMergeTarget (s.bump .axlesAdmitted).control.params o = none from hnone]
  exact (if_pos ((reached_iff _ _).2 hlater)).trans ((if_pos hj).trans (if_neg (by rw [hfull]; exact Nat.lt_irrefl 12)))

theorem admitAxle_ends (hv : s.assembler.openVehicle = some v) (hnone : v.localMergeTarget s.control.params o = none)
    (hlater : 0 ≤ (o.time - v.lastTime).toInt) (hj : v.joins s.control.params o = false) :
    s.admitAxle o = ((s.bump .axlesAdmitted).endOpen).openWith o false := by
  unfold State.admitAxle State.placeAxle
  rw [show (s.bump .axlesAdmitted).assembler.openVehicle = some v from hv]
  simp only
  rw [show v.localMergeTarget (s.bump .axlesAdmitted).control.params o = none from hnone]
  exact (if_pos ((reached_iff _ _).2 hlater)).trans (if_neg (by
    rw [show v.joins (s.bump .axlesAdmitted).control.params o = false from hj]
    exact Bool.false_ne_true))

/-- Settles O35: the joining test decides which end of `admitAxle` is taken, the laws of `endOpen` the rest. -/
theorem axleJoinsOpenVehicle : Obligations.AxleJoinsOpenVehicle := by
  intro s v o hv hsided halone hlater p fits due axle joined leaves gone opens held ends
  have hnone := localMergeTarget_none hsided halone
  have hj : v.joins s.control.params o = true ↔ fits := joins_iff _ _ _
  have hedge : ∀ w : Vehicle, w.number = v.number →
      ((leaves (some w)).hasEdge w.number = true ↔ ∃ e ∈ s.boundary.edges, e.vehicle = v.number) :=
    fun w hw => hw ▸ hasEdge_iff (leaves (some w)) w.number
  have hopens (w : Vehicle) (continuation : Bool)
      (ha : s.admitAxle o = ((leaves (some w)).endOpen).openWith o continuation) :
      opens (leaves (some w)).endOpen continuation := by
    have hforms := Forms.endOpen none (leaves (some w))
    have hn : (leaves (some w)).endOpen.assembler.lastNumber = s.assembler.lastNumber := endOpen_lastNumber _
    show AfterPlacing _ _ _ (s.admitAxle o)
    rw [ha]
    exact openWith_places (congrArg Control.params hforms.control) hforms.handover hn hforms.defaulted o continuation
  have hends (w : Vehicle) (continuation : Bool) (hnumber : w.number = v.number) (hpairing : w.pairing = v.pairing)
      (hgap : w.gapDueMark = v.gapDueMark) (hclose : w.ownerCloseMet = v.ownerCloseMet)
      (hbody : Body.yieldClosed w.peer w.peerVehicle w.forwarded = .yieldClosed v.peer v.peerVehicle v.forwarded)
      (ha : s.admitAxle o = ((leaves (some w)).endOpen).openWith o continuation) : ends w continuation := by
    have h := hopens w continuation ha
    have holds (hh : held) : (leaves (some w)).endOpen = gone.enterClosing w := by
      refine endOpen_holds rfl ?_
      rcases hh with hh | ⟨hp, hh⟩ | ⟨hp, hh⟩
      · exact .inl ((hedge w hnumber).2 hh)
      · refine .inr (.inl ⟨hpairing.trans hp, hclose.trans ?_⟩)
        rw [← Bool.not_eq_true, ownerCloseMet_iff]
        exact hh
      · exact .inr (.inr ⟨hpairing.trans hp, hgap.trans hh⟩)
    have hfree (hh : ¬ held) : (leaves (some w)).hasEdge w.number = false :=
      Bool.eq_false_of_not_eq_true fun he => hh (.inl ((hedge w hnumber).1 he))
    refine ⟨fun hh hempty => ?_, fun hh => ?_, fun hh hp => ?_, fun hh hp => ?_⟩
    · rw [holds hh, enterClosing_empty (by exact hempty)] at h
      exact h
    · rw [holds hh] at h
      exact h
    · rw [endOpen_completes rfl (hfree hh) (by rwa [hpairing]) fun howner => ?_] at h
      · exact h
      · rw [hclose, ownerCloseMet_iff]
        by_contra hn
        exact hh (.inr (.inl ⟨hpairing.symm.trans howner, hn⟩))
    · have hg : w.gapDueMark = true := by
        rw [hgap, ← Bool.not_eq_false]
        exact fun hn => hh (.inr (.inr ⟨hp, hn⟩))
      rw [endOpen_yields rfl (hfree hh) (hpairing.trans hp) hg] at h
      unfold State.endYielded at h
      rw [hbody] at h
      exact h
  refine ⟨fun hf hroom => ?_, fun hf hfull => ?_, fun hf => ?_⟩
  · rw [admitAxle_joins hv hnone hlater (hj.2 hf) hroom]
    refine placeOpen_places (s := s.bump .axlesAdmitted) _ true o ?_
    show Vehicle.becomeLatest _ _ _ (Vehicle.placeAt _ _ _ _) = joined
    unfold Vehicle.placeAt Vehicle.insertAxle
    rw [List.take_length, List.drop_length]
    rfl
  · refine hends { v with flags := { v.flags with truncated := true } } true rfl rfl rfl rfl rfl ?_
    rw [admitAxle_full hv hnone hlater (hj.2 hf) hfull]
    unfold State.flagOpen
    rw [show (s.bump .axlesAdmitted).assembler.openVehicle = some v from hv]
    rfl
  · refine hends v false rfl rfl rfl rfl rfl ?_
    rw [admitAxle_ends hv hnone hlater (Bool.eq_false_of_not_eq_true (mt hj.1 hf))]
    have hstands : leaves (some v) = s.bump .axlesAdmitted := by
      show ({ s with counters := _, assembler := { s.assembler with openVehicle := some v } } : State) = _
      rw [← hv]
      rfl
    rw [hstands]

/-! ## Late and merged axles -/

/-- A late axle that fills no transferred axle goes to its place or is discarded (R78). -/
theorem admitAxle_late (hv : s.assembler.openVehicle = some v) (hnone : v.localMergeTarget s.control.params o = none)
    (hlate : (o.time - v.lastTime).toInt < 0) : s.admitAxle o = (s.bump .axlesAdmitted).placeLate o v := by
  unfold State.admitAxle State.placeAxle
  rw [show (s.bump .axlesAdmitted).assembler.openVehicle = some v from hv]
  simp only
  rw [show v.localMergeTarget (s.bump .axlesAdmitted).control.params o = none from hnone]
  exact if_neg (by rw [reached_iff]; omega)

theorem reachesFirst_iff (o : Observation) (v : Vehicle) :
    v.reachesFirst o = true ↔ ∀ first ∈ v.axles.head?, 0 ≤ (o.time - first.time).toInt := by
  unfold Vehicle.reachesFirst
  cases v.axles <;> simp [reached_iff]

/-- The place of a time in the axle list (R78, R105). -/
theorem placeOf_split {time : LocalTime} {before after : List Axle} (hl : v.axles = before ++ after)
    (hb : ∀ a ∈ before, 0 ≤ (time - a.time).toInt) (ha : ∀ a ∈ after.head?, (time - a.time).toInt < 0) :
    v.placeOf time = before.length := by
  unfold Vehicle.placeOf
  rw [hl, List.takeWhile_append_of_pos fun a h => (reached_iff _ _).2 (hb a h)]
  cases after with
  | nil => simp
  | cons a after =>
    have hlast : ¬ reached time a.time = true := by
      rw [reached_iff, not_le]
      exact ha a rfl
    rw [List.takeWhile_cons_of_neg (p := fun a : Axle => reached time a.time) hlast, List.append_nil]

theorem flagOpen_eq {t : State} (hv : t.assembler.openVehicle = some v) (f : Flags → Flags) : t.flagOpen f =
    { t with assembler := { t.assembler with openVehicle := some { v with flags := f v.flags } } } := by
  unfold State.flagOpen
  rw [hv]
  rfl

theorem placeLate_discards {t : State} (hv : t.assembler.openVehicle = some v) {incomplete truncated : Bool}
    (hi : (o.direction = v.direction && v.reachesFirst o) = !incomplete)
    (ht : decide (Config.axleCapacity ≤ v.axles.length) = truncated) (hd : incomplete = true ∨ truncated = true) :
    t.placeLate o v = { t with assembler := { t.assembler with
      openVehicle := some { v with flags := { v.flags with
        incomplete := v.flags.incomplete || incomplete, truncated := v.flags.truncated || truncated } } } } := by
  unfold State.placeLate
  simp only [hi, ht, Bool.not_not]
  rw [flagOpen_eq hv]
  exact if_neg (by rcases hd with h | h <;> simp [h])

/-- The axle of a tag gets its half, the others stay (R102, R105, R106). -/
theorem fillAxle_split {a : Axle} {before after : List Axle} (hl : v.axles = before ++ a :: after)
    (htags : ∀ b ∈ before ++ after, b.tag ≠ a.tag) (h : Half) (l : HalfLoad) : v.fillAxle a h l = { v with
      axles := before ++ a.fill h l :: after
      flags := { v.flags with
        straddle := true, mismatch := v.flags.mismatch || (a.fill h l).mismatch
        saturated := v.flags.saturated || (a.fill h l).saturated } } := by
  have keeps (m : List Axle) (hm : ∀ b ∈ m, b.tag ≠ a.tag) :
      m.map (fun b => if b.tag = a.tag then b.fill h l else b) = m :=
    (List.map_congr_left fun b hb => if_neg (hm b hb)).trans (List.map_id _)
  unfold Vehicle.fillAxle Vehicle.takeMarks
  simp only [hl, List.map_append, List.map_cons, if_true, keeps before fun b hb => htags b (List.mem_append_left _ hb),
    keeps after fun b hb => htags b (List.mem_append_right _ hb)]

/-- An axle that a half fills is the nearest of the list that can take it (R105, R106). -/
theorem nearest_filter_split {α : Type} {d : α → Nat} {q : α → Bool} {before after : List α} {a : α} (ha : q a = true)
    (hb : ∀ b ∈ before, q b = true → d a < d b) (hc : ∀ b ∈ after, q b = true → d a ≤ d b) :
    nearest d ((before ++ a :: after).filter q) = some a := by
  rw [List.filter_append, List.filter_cons_of_pos ha]
  refine nearest_split d _ a _ (fun b hm => ?_) fun b hm => ?_
  · exact hb b (List.mem_filter.1 hm).1 (List.mem_filter.1 hm).2
  · exact hc b (List.mem_filter.1 hm).1 (List.mem_filter.1 hm).2

theorem alone_loneHalf (x : HalfAxle) : x.alone.loneHalf = some x := by
  unfold HalfAxle.alone Observation.loneHalf
  cases x.half <;> rfl

/-- A transferred axle within K that lacks just the half of `x` (R106). -/
def lacksHalf (p : Params) (x : HalfAxle) (b : Axle) : Bool :=
  State.withinK p b.time x.leadTime &&
    match b.loneHalf with
    | some (g, l) => g = x.half.other && l.remote
    | none => false

theorem lacksHalf_iff (p : Params) (x : HalfAxle) (b : Axle) : lacksHalf p x b = true ↔
    ∃ m, b.loneHalf = some (x.half.other, m) ∧ m.remote = true ∧
      (b.time - x.leadTime).toInt.natAbs ≤ p.matchWindow := by
  unfold lacksHalf
  cases b.loneHalf with
  | none => simp
  | some y =>
    obtain ⟨g, m⟩ := y
    simp only [State.withinK, sdiff, Bool.and_eq_true, decide_eq_true_eq, Option.some.injEq, Prod.mk.injEq]
    constructor
    · rintro ⟨hk, hg, hr⟩
      exact ⟨m, ⟨hg, rfl⟩, hr, hk⟩
    · rintro ⟨m', ⟨hg, rfl⟩, hr, hk⟩
      exact ⟨hk, hg, hr⟩

theorem localMergeTarget_alone {p : Params} {x : HalfAxle} (hp : v.pairing = .owner) (hlost : v.flags.partnerLost = false)
    (hdir : x.direction = v.direction) : v.localMergeTarget p x.alone =
      (nearest (fun b => (b.time - x.leadTime).toInt.natAbs) (v.axles.filter (lacksHalf p x))).map (fun a => (a, x)) := by
  unfold Vehicle.localMergeTarget
  rw [alone_loneHalf]
  exact if_pos ⟨hp, hlost, hdir⟩

/-- The nearest transferred axle within K that lacks just this half (R106). -/
theorem localMergeTarget_nearest {p : Params} {x : HalfAxle} {a : Axle} {before after : List Axle} {l : HalfLoad}
    (hp : v.pairing = .owner) (hlost : v.flags.partnerLost = false) (hdir : x.direction = v.direction)
    (hl : v.axles = before ++ a :: after) :
    let distance := fun (b : Axle) => (b.time - x.leadTime).toInt.natAbs
    let candidate := fun (b : Axle) (m : HalfLoad) =>
      b.loneHalf = some (x.half.other, m) ∧ m.remote = true ∧ distance b ≤ p.matchWindow
    candidate a l → (∀ b ∈ before, ∀ m, candidate b m → distance a < distance b) →
    (∀ b ∈ after, ∀ m, candidate b m → distance a ≤ distance b) → v.localMergeTarget p x.alone = some (a, x) := by
  intro distance candidate hc hb ha
  have htest (b : Axle) : lacksHalf p x b = true ↔ ∃ m, candidate b m := lacksHalf_iff p x b
  rw [localMergeTarget_alone hp hlost hdir, hl, nearest_filter_split ((htest a).2 ⟨l, hc⟩)]
  · rfl
  · intro b hm hq
    obtain ⟨m, hm'⟩ := (htest b).1 hq
    exact hb b hm m hm'
  · intro b hm hq
    obtain ⟨m, hm'⟩ := (htest b).1 hq
    exact ha b hm m hm'

/-- Settles O36: the late axle by its three conditions, the merged one by the nearest that it fills. -/
theorem lateAndMergedAxlesPlaced : Obligations.LateAndMergedAxlesPlaced := by
  refine ⟨fun s v o hv hsided halone hlate => ?late, fun s v x a before after l hv hp hlost hdir hl htags => ?merged⟩
  case late =>
    intro p fits placed flagged
    have hadmit := admitAxle_late hv (localMergeTarget_none hsided halone) hlate
    have hv' : (s.bump .axlesAdmitted).assembler.openVehicle = some v := hv
    have hfits : (o.direction = v.direction && v.reachesFirst o) = true ↔ fits := by
      rw [Bool.and_eq_true, decide_eq_true_eq, reachesFirst_iff]
    have hfits' (h : ¬ fits) : (o.direction = v.direction && v.reachesFirst o) = false :=
      Bool.eq_false_of_not_eq_true (mt hfits.1 h)
    have hroom (h : v.axles.length < 12) : decide (Config.axleCapacity ≤ v.axles.length) = false :=
      decide_eq_false (not_le.2 h)
    have hfull (h : v.axles.length = 12) : decide (Config.axleCapacity ≤ v.axles.length) = true :=
      decide_eq_true h.ge
    refine ⟨fun before after hf hr hl hb ha => ?_, fun hf hr => ?_, fun hf hr => ?_, fun hf hr => ?_⟩
    · intro axle w
      have hplace : v.placeOf o.time = before.length := placeOf_split hl hb ha
      rw [hadmit]
      unfold State.placeLate
      simp only [hfits.2 hf, hroom hr, hplace]
      refine placeOpen_places (s := s.bump .axlesAdmitted) before.length false o ?_
      show Vehicle.placeAt _ _ _ _ = w
      unfold Vehicle.placeAt Vehicle.insertAxle
      rw [hl, List.take_left, List.drop_left]
      rfl
    · exact hadmit.trans (placeLate_discards hv' (hfits' hf) (hroom hr) (.inl rfl))
    · exact hadmit.trans (placeLate_discards hv' (hfits.2 hf) (hfull hr) (.inr rfl))
    · exact hadmit.trans (placeLate_discards hv' (hfits' hf) (hfull hr) (.inl rfl))
  case merged =>
    intro p distance candidate hc hb ha filled
    have htarget : v.localMergeTarget s.control.params x.alone = some (a, x) :=
      localMergeTarget_nearest hp hlost hdir hl hc hb ha
    unfold State.admitAxle State.placeAxle
    rw [show (s.bump .axlesAdmitted).assembler.openVehicle = some v from hv]
    simp only
    rw [show v.localMergeTarget (s.bump .axlesAdmitted).control.params x.alone = some (a, x) from htarget]
    simp only [State.mergeLocal, fillAxle_split hl htags]
    rfl

end Sys2Proof.Machine.Laws
end

section
/-!
# Edge axles (chapters 05, 06)

`edgeMatches_iff` says when an entry and a notice match, `admitEdge_joined` what an admitted edge axle does; a released half
that opens a vehicle goes through `openWith_places`.
-/
namespace Sys2Proof.Machine.Laws
open Sys2Proof.Machine.Safety

variable {s t : State} {v : Vehicle} {a : Axle} {h : Half} {l : HalfLoad}

/-! ## The admission of an edge axle -/

theorem absDiff_eq (a b : Nat) : absDiff a b = ((a : Int) - b).natAbs := by
  unfold absDiff
  split <;> omega

/-- A local edge axle and a notice of its side match (R97). -/
theorem edgeMatches_iff (s : State) (e : EdgeEntry) (n : RemoteNotice) : s.edgeMatches e n = true ↔
    (e.time - n.time).toInt.natAbs ≤ s.control.params.matchWindow ∧
      ((e.speed : Int) - n.speed).natAbs * 100 ≤ s.control.params.speedPct * max e.speed n.speed ∧
      ∃ v, s.vehicle e.vehicle = some v ∧
        (v.pairing = .unpaired ∨ v.peer = n.source ∧ v.peerVehicle = n.vehicle) := by
  unfold State.edgeMatches
  rw [absDiff_eq]
  cases s.vehicle e.vehicle <;> simp [and_assoc]

theorem edgeMatches_of_vehicle {e : EdgeEntry} (hv : s.vehicle e.vehicle = some v) (n : RemoteNotice) :
    s.edgeMatches e n = true ↔ (e.time - n.time).toInt.natAbs ≤ s.control.params.matchWindow ∧
      ((e.speed : Int) - n.speed).natAbs * 100 ≤ s.control.params.speedPct * max e.speed n.speed ∧
      (v.pairing = .unpaired ∨ v.peer = n.source ∧ v.peerVehicle = n.vehicle) := by
  rw [edgeMatches_iff, hv]
  simp

/-- The entry of an edge axle (R91). -/
def edgeEntryOf (now : LocalTime) (v : Vehicle) (a : Axle) (h : Half) (l : HalfLoad) : EdgeEntry :=
  { side := h, vehicle := v.number, tag := a.tag, time := a.time, speed := a.speed, load := l.load
    index := a.index, saturated := l.saturated, mismatch := l.mismatch, joined := now }

/-- The edge axle in its list, and its notice alone in the queue (R91, R92). -/
def edgeJoined (v : Vehicle) (a : Axle) (h : Half) (l : HalfLoad) (s : State) : State :=
  { s with
    boundary := { s.boundary with edges := s.boundary.edges ++ [edgeEntryOf s.localTime v a h l] }
    link := { s.link with
      transmitQueue := queued (.halfAxle h a.time a.speed l.load a.index v.number l.saturated l.mismatch)
      transmitter := .waitIdle } }

theorem edgeRoom_eq (hroom : s.boundary.edges.length < 4) : s.edgeRoom = s := by
  unfold State.edgeRoom
  split
  · exact if_neg (not_le.2 hroom)
  · rfl

theorem edgeRoom_full {oldest : EdgeEntry} {rest : List EdgeEntry} (he : s.boundary.edges = oldest :: rest)
    (hfull : rest.length = 3) : s.edgeRoom = (s.resolveEdge oldest).closeTest := by
  unfold State.edgeRoom
  rw [he]
  exact if_pos (by rw [List.length_cons, hfull])

theorem admitEdge_joined (hst : s.control.station = .running) (hroom : s.boundary.edges.length < 4)
    (hq : s.link.transmitQueue = []) (ht : s.link.transmitter = .idle) :
    ((edgeJoined v a h l s).noticeFor (edgeEntryOf s.localTime v a h l) = none →
      s.admitEdge v a h l = edgeJoined v a h l s) ∧
    ∀ n, (edgeJoined v a h l s).noticeFor (edgeEntryOf s.localTime v a h l) = some n → s.admitEdge v a h l =
      (((edgeJoined v a h l s).setRemote h (((edgeJoined v a h l s).boundary.remote.get h).erase n)).makeMatch
        (edgeEntryOf s.localTime v a h l) n).closeTest := by
  have hjoined : ({ s with boundary := { s.boundary with
      edges := s.boundary.edges ++ [edgeEntryOf s.localTime v a h l] } } : State).produce
      (.halfAxle h a.time a.speed l.load a.index v.number l.saturated l.mismatch) = edgeJoined v a h l s :=
    produce_alone (s := { s with boundary := _ }) (.inl hst) hq ht
  have hadmit : s.admitEdge v a h l = match (edgeJoined v a h l s).noticeFor (edgeEntryOf s.localTime v a h l) with
      | none => edgeJoined v a h l s
      | some n => (((edgeJoined v a h l s).setRemote h (((edgeJoined v a h l s).boundary.remote.get h).erase n)).makeMatch
          (edgeEntryOf s.localTime v a h l) n).closeTest := by
    rw [← hjoined]
    unfold State.admitEdge
    rw [edgeRoom_eq hroom]
    rfl
  refine ⟨fun hn => ?_, fun n hn => ?_⟩ <;> rw [hadmit, hn]

/-- An edge axle that no notice matches waits (R98). -/
theorem noticeFor_none {e : EdgeEntry} (hn : ∀ n ∈ s.boundary.remote.get e.side, ¬ s.edgeMatches e n = true) :
    s.noticeFor e = none :=
  (nearest_none _ _).2 (List.filter_eq_nil_iff.2 hn)

/-- Settles O40: the test, the room, and the search of the remote list. -/
theorem edgeAxleAdmitted : Obligations.EdgeAxleAdmitted := by
  intro s v a h l p peer remote e joined distance fits
  have hpeer : p.neighbour.get h = peer := by
    show _ = match h with
      | .left => p.neighbour.left
      | .right => p.neighbour.right
    cases h <;> rfl
  have hremote : s.boundary.remote.get h = remote := by
    show _ = match h with
      | .left => s.boundary.remote.left
      | .right => s.boundary.remote.right
    cases h <;> rfl
  refine ⟨?edge, fun hv hp => ?placed, fun oldest rest he hfull => ?full, fun hv hst hroom hq ht => ?matched⟩
  case edge =>
    rw [← hpeer]
    exact edgeHalf_iff p a v h l
  case placed =>
    obtain ⟨hnone, hedge, -, -⟩ := afterPlacement_places hv a
    refine ⟨fun he => hedge h l ((edgeHalf_iff _ _ _ _ _).1 he), fun he => hnone hp fun g m hg => ?_⟩
    rw [(edgeHalf_iff p a v g m).2 hg] at he
    cases he
  case full =>
    have hless : (s.resolveEdge oldest).closeTest.boundary.edges.length < 4 := by
      rw [closeTest_boundary, resolveEdge_edges]
      have hdrop : (s.dropEdge oldest.vehicle oldest.tag).boundary.edges.length < s.boundary.edges.length :=
        List.length_filter_lt_length_iff_exists.2 ⟨oldest, by rw [he]; exact List.mem_cons_self, by simp⟩
      rw [he, List.length_cons, hfull] at hdrop
      exact hdrop
    refine ⟨hless, ?_⟩
    unfold State.admitEdge
    rw [edgeRoom_full he hfull, edgeRoom_eq hless]
  case matched =>
    obtain ⟨hwaits, htakes⟩ := admitEdge_joined (v := v) (a := a) (h := h) (l := l) hst hroom hq ht
    have hvehicle : (edgeJoined v a h l s).vehicle v.number = some v :=
      (StandsIn.of_slot (k := .openSlot) hv).vehicle
    have hfits (n : RemoteNotice) :
        (edgeJoined v a h l s).edgeMatches (edgeEntryOf s.localTime v a h l) n = true ↔ fits n :=
      edgeMatches_of_vehicle hvehicle n
    refine ⟨fun hn => hwaits (noticeFor_none fun n hm => ?_), fun before n after hl hn hb ha hfirst => ?_⟩
    · exact mt (hfits n).1 (hn n (hremote ▸ hm))
    · have hnotice : (edgeJoined v a h l s).noticeFor (edgeEntryOf s.localTime v a h l) = some n := by
        unfold State.noticeFor
        rw [show (edgeJoined v a h l s).boundary.remote.get (edgeEntryOf s.localTime v a h l).side =
          before ++ n :: after from hremote.trans hl, nearest_filter_split ((hfits n).2 hn)]
        · exact fun m hm hq => hb m hm ((hfits m).1 hq)
        · exact fun m hm hq => ha m hm ((hfits m).1 hq)
      rw [htakes n hnotice, show (edgeJoined v a h l s).boundary.remote.get h = before ++ n :: after from hremote.trans hl,
        List.erase_append_right _ fun hm => hfirst n hm rfl, List.erase_cons_head]
      cases h <;> rfl

/-! ## A released half that opens a vehicle -/

theorem halfLoad_load_le (p : Params) (factor correction : Nat) (x : HalfAxle) :
    (halfLoad p factor correction x).load ≤ 65534 :=
  min_le_left _ _

/-- The marks of an axle of one half are its half's (R42). -/
theorem marks_of_alone {half : HalfLoad} {a : Axle} (hle : half.load ≤ 65535)
    (ha : a.halves = [half]) : a.mismatch = half.mismatch ∧ a.saturated = half.saturated := by
  refine ⟨?_, ?_⟩
  · unfold Axle.mismatch
    rw [ha]
    exact Bool.or_false _
  · unfold Axle.saturated Axle.loadSum
    have hsum : ¬ Config.axleLoadMax < half.load := not_lt.2 hle
    simp [ha, hsum]

/-- Settles O26: the half is admitted to an empty open slot, and what follows its placement is read off `AfterPlacing`. -/
theorem releasedHalfOpensVehicle : Obligations.ReleasedHalfOpensVehicle := by
  intro s h x hm heven hx hhalf hother p closing hdue hopen latched correction half number axle opened
  have hexec : exec (.halfRelease h) s = .next ((clearedSlot h s).admitAxle x.alone) := by
    rw [exec_halfRelease (measuringSample_of hm heven) hx]
    · refine congrArg Host.Outcome.next (admitOrdered_none fun g => waitingBefore_eq_none fun y hy => ?_)
      have hempty : (listsOf (clearedSlot h s) g).slot = none := by
        cases h <;> cases g
        · rfl
        · exact hother
        · exact hother
        · rfl
      rw [hempty] at hy
      cases hy.1
    · have hdue : 0 ≤ (s.localTime - ((match x.direction with
          | .forward => x.trailTime
          | .reverse => x.leadTime) + BitVec.ofNat 32 (p.skew + (p.maxPulse + 2)))).toInt := hdue
      cases hd : x.direction <;> simpa only [HalfAxle.releaseTime, HalfAxle.closingTime, hd] using hdue
  have hopens : (clearedSlot h s).admitAxle x.alone = ((clearedSlot h s).bump .axlesAdmitted).openWith x.alone false := by
    unfold State.admitAxle State.placeAxle
    rw [show ((clearedSlot h s).bump .axlesAdmitted).assembler.openVehicle = none from hopen]
  have hfirst : firstAxle p latched correction x.alone = axle := by
    rw [alone_eq, hhalf]
    cases h <;> rfl
  obtain ⟨w, hw⟩ : ∃ w, w = openedVehicle p latched correction number s.drift.defaulted false x.alone := ⟨_, rfl⟩
  have hopened : ({ (clearedSlot h s).bump .axlesAdmitted with assembler := { s.assembler with
      lastNumber := number, openVehicle := some w } } : State) = opened := by
    have hmarks := marks_of_alone (a := axle) ((halfLoad_load_le p latched.factor correction x).trans (by decide))
      (by cases h <;> rfl)
    rw [hw]
    unfold openedVehicle
    simp only [hfirst, hmarks.1, hmarks.2]
    rw [alone_eq]
    rfl
  have hplaced : AfterPlacing w axle opened ((clearedSlot h s).admitAxle x.alone) := by
    rw [hopens, ← hopened, ← hfirst, hw]
    exact openWith_places (s := (clearedSlot h s).bump .axlesAdmitted) rfl rfl rfl rfl x.alone false
  have hparams : opened.control.params = p := rfl
  obtain ⟨hnone, hedge, -, -⟩ := hplaced
  have hpairing : w.pairing = .unpaired := by rw [hw]; rfl
  refine ⟨fun hno => ?none, fun hneighbour hforward hrunning hboundary hq ht => ?edge⟩
  case none =>
    rw [hexec]
    refine congrArg Host.Outcome.next (hnone (by rw [hpairing]; exact Pairing.noConfusion) fun g l he => ?_)
    obtain ⟨hlone, hdirection, hn, -⟩ := he
    refine hno.elim (fun h0 => hn ?_) fun hr => Direction.noConfusion (hr.symm.trans hdirection)
    have hg : g = h := by cases h <;> cases g <;> simp_all [axle]
    rw [hg]
    exact h0
  case edge =>
    rw [hexec]
    refine congrArg Host.Outcome.next ((hedge h half ⟨?_, hforward, hneighbour, by rw [hw]; rfl, .inl hpairing⟩).trans ?_)
    · cases h <;> exact ⟨rfl, rfl⟩
    · have hempty : opened.boundary = { edges := [], remote := ⟨[], []⟩ } := hboundary
      have hjoined := (admitEdge_joined (s := opened) (v := w) (a := axle) (h := h) (l := half) hrunning
        (by rw [hempty]; decide) hq ht).1 (noticeFor_none fun n hm => ?_)
      · rw [hjoined]
        unfold edgeJoined edgeEntryOf
        rw [hempty, hw]
        rfl
      · have hremote : (edgeJoined w axle h half opened).boundary.remote.get h = [] := by
          show opened.boundary.remote.get h = []
          rw [hempty]
          cases h <;> rfl
        rw [show (edgeEntryOf opened.localTime w axle h half).side = h from rfl, hremote] at hm
        cases hm

end Sys2Proof.Machine.Laws
end

section
/-!
# Waits that run out, and the closing slot (chapter 06)

Entries that leave the edge list are told by the list that stays (`resolveEdge_unmatched`, `resolveEdge_forwarded`,
`resolveOwn_unmatched`, `resolveOwn_forwarded`); the closing vehicle then ends by the laws of `closeTest`.
-/
namespace Sys2Proof.Machine.Laws
open Sys2Proof.Machine.Safety

variable {s t : State} {k : Slot} {v : Vehicle} {e : EdgeEntry} {before after : List EdgeEntry}

/-! ## Entries that leave the edge list -/

theorem filter_split_one {α : Type} {q : α → Bool} {before after : List α} {x : α} (hx : q x = false)
    (hkeep : ∀ d ∈ before ++ after, q d = true) : (before ++ x :: after).filter q = before ++ after := by
  rw [List.filter_append, List.filter_cons_of_neg (by rw [hx]; exact Bool.false_ne_true), ← List.filter_append,
    List.filter_eq_self.2 hkeep]

/-- The list without one entry, where no other is of its vehicle and axle. -/
theorem staysBeside_split (hdistinct : ∀ d ∈ before ++ after, d.vehicle = e.vehicle → d.tag ≠ e.tag) :
    (before ++ e :: after).filter (staysBeside [e]) = before ++ after := by
  refine filter_split_one (by simp [staysBeside]) fun d hd => ?_
  have htag := hdistinct d hd
  simpa [staysBeside, imp_iff_not_or] using htag

/-- The list without the entries of one vehicle. -/
theorem staysBeside_own (l : List EdgeEntry) (n : Nat) :
    l.filter (staysBeside (l.filter (fun e => e.vehicle == n))) = l.filter (fun e => e.vehicle != n) := by
  refine List.filter_congr fun d hd => ?_
  unfold staysBeside
  rw [bne]
  congr 1
  rw [Bool.eq_iff_iff, List.any_eq_true]
  refine ⟨fun ⟨o, ho, hsame⟩ => ?_, fun hn => ⟨d, List.mem_filter.2 ⟨hd, hn⟩, by simp⟩⟩
  obtain ⟨-, ho⟩ := List.mem_filter.1 ho
  rw [Bool.and_eq_true, beq_iff_eq] at hsame
  rwa [hsame.1]

theorem countUnmatched_eq (n : Nat) (s : State) : countUnmatched n s = { s with
    counters := if n = 0 then s.counters else s.counters.set 6 (min 65535 (s.counters[6] + n)) } := by
  unfold countUnmatched
  split
  · rfl
  · rfl

/-- An entry of a vehicle that is not YIELDED leaves the list, is counted, and its vehicle takes EDGE-UNMATCHED (R100). -/
theorem resolveEdge_unmatched (hv : StandsIn k v s) (hp : v.pairing ≠ .yielded) (he : v.number = e.vehicle)
    (hl : s.boundary.edges = before ++ e :: after)
    (hdistinct : ∀ d ∈ before ++ after, d.vehicle = e.vehicle → d.tag ≠ e.tag) :
    s.resolveEdge e = ({ withEdges s (before ++ after) with counters := counted 6 s.counters } : State).setSlot k
      (some { v with flags := { v.flags with edgeUnmatched := true } }) := by
  have hkept := resolveEdges_kept [e] k v s hv hp fun d hd => by rw [List.mem_singleton.1 hd, he]
  rw [hl, staysBeside_split hdistinct, List.isEmpty_cons, Bool.not_false, Bool.or_true] at hkept
  rw [show s.resolveEdge e = s.resolveEdges [e] from rfl, hkept]
  cases k <;> rfl

/-- The axle of an entry of a YIELDED vehicle is forwarded in RUNNING (R100, R103). -/
theorem resolveEdge_forwarded {a : Axle} (hv : StandsIn k v s) (hp : v.pairing = .yielded) (he : v.number = e.vehicle)
    (hr : s.control.station = .running) (hl : s.boundary.edges = before ++ e :: after)
    (hdistinct : ∀ d ∈ before ++ after, d.vehicle = e.vehicle → d.tag ≠ e.tag)
    (ha : v.axles.find? (fun a => a.tag == e.tag) = some a) :
    s.resolveEdge e = ((withEdges s (before ++ after)).produce (transferOf v.peer v.peerVehicle a)).setSlot k
      (some (forwardedMore v 1)) := by
  have hsent := resolveEdges_yielded [e] k v s hv hp (fun d hd => by rw [List.mem_singleton.1 hd, he]) hr
  rw [hl, staysBeside_split hdistinct, List.filterMap_cons_some (by exact ha), List.filterMap_nil] at hsent
  rw [show s.resolveEdge e = s.resolveEdges [e] from rfl, hsent, ← produce_setSlot]
  rfl

/-- The edge list without the entries of a vehicle, each of them counted as unmatched (R100). -/
def ownCounted (n : Nat) (s : State) : State :=
  { s with
    boundary := { s.boundary with edges := s.boundary.edges.filter (fun e => e.vehicle != n) }
    counters := if s.edgesOf n = [] then s.counters
      else s.counters.set 6 (min 65535 (s.counters[6] + (s.edgesOf n).length)) }

/-- All entries of a vehicle that is not YIELDED resolve (R100, R108, R110, R111). -/
theorem resolveOwn_unmatched (hv : StandsIn k v s) (hp : v.pairing ≠ .yielded) :
    s.resolveEdges (s.edgesOf v.number) = (ownCounted v.number s).setSlot k (some { v with
      flags := { v.flags with edgeUnmatched := v.flags.edgeUnmatched || !(s.edgesOf v.number).isEmpty } }) := by
  have hkept := resolveEdges_kept (s.edgesOf v.number) k v s hv hp fun d hd => by
    simpa using (List.mem_filter.1 hd).2
  rw [show s.boundary.edges.filter (staysBeside (s.edgesOf v.number)) =
    s.boundary.edges.filter (fun e => e.vehicle != v.number) from staysBeside_own _ _, countUnmatched_eq] at hkept
  rw [hkept]
  unfold ownCounted
  simp only [List.length_eq_zero_iff]
  cases k <;> rfl

/-- They resolve so in the vehicle that has just been put in the slot in the place of another of its number. -/
theorem resolveOwn_put {w : Vehicle} (hv : StandsIn k v s) (hw : w.number = v.number) (hp : w.pairing ≠ .yielded) :
    (s.setSlot k (some w)).resolveEdges ((s.setSlot k (some w)).edgesOf v.number) =
      (ownCounted v.number s).setSlot k (some { w with
        flags := { w.flags with edgeUnmatched := w.flags.edgeUnmatched || !(s.edgesOf v.number).isEmpty } }) := by
  have hres := resolveOwn_unmatched (hv.set w hw) hp
  have hsame : (s.setSlot k (some w)).edgesOf v.number = s.edgesOf v.number := by cases k <;> rfl
  have hcounted : ownCounted w.number (s.setSlot k (some w)) = (ownCounted v.number s).setSlot k (some w) := by
    rw [hw]
    cases k <;> rfl
  rw [hcounted, setSlot_setSlot, show (s.setSlot k (some w)).edgesOf w.number = s.edgesOf v.number from
    (congrArg _ hw).trans hsame] at hres
  rw [hsame]
  exact hres

theorem not_hasEdge_ownCounted (n : Nat) (s : State) (k : Slot) (w : Option Vehicle) :
    ((ownCounted n s).setSlot k w).hasEdge n = false := by
  rw [Bool.eq_false_iff, ne_eq, hasEdge_iff]
  rintro ⟨e, he, hn⟩
  have hmem : e ∈ s.boundary.edges.filter (fun e => e.vehicle != n) := by cases k <;> exact he
  simpa [hn] using (List.mem_filter.1 hmem).2

theorem filterMap_of_map {α β : Type} {f : α → Option β} {l : List α} {m : List β} (h : l.map f = m.map some) :
    l.filterMap f = m := by
  have hid := congrArg (List.filterMap id) h
  simpa [List.filterMap_map] using hid

/-- All entries of a YIELDED vehicle resolve in RUNNING, where each is of one of its axles (R100, R103, R110). -/
theorem resolveOwn_forwarded (hv : StandsIn k v s) (hp : v.pairing = .yielded) (hr : s.control.station = .running)
    {axles : List Axle}
    (ha : (s.edgesOf v.number).map (fun e => v.axles.find? (fun a => a.tag == e.tag)) = axles.map some) :
    s.resolveEdges (s.edgesOf v.number) = (sends v axles
      (withEdges s (s.boundary.edges.filter (fun e => e.vehicle != v.number)))).setSlot k
      (some (forwardedMore v axles.length)) := by
  have hsent := resolveEdges_yielded (s.edgesOf v.number) k v s hv hp
    (fun d hd => by simpa using (List.mem_filter.1 hd).2) hr
  rw [show s.boundary.edges.filter (staysBeside (s.edgesOf v.number)) =
    s.boundary.edges.filter (fun e => e.vehicle != v.number) from staysBeside_own _ _] at hsent
  rw [hsent, filterMap_of_map ha, ← sends_setSlot]

/-! ## Waits that run out -/

/-- The first entry whose wait has passed W_s resolves (R91). -/
theorem exec_edgeWaitExpiry (hm : s.measuringSample = true) (hl : s.boundary.edges = before ++ e :: after)
    (hbefore : ∀ d ∈ before, (s.localTime - d.joined).toInt ≤ (s.control.params.edgeWait * 16384 / 1000 : Nat))
    (he : ((s.control.params.edgeWait * 16384 / 1000 : Nat) : Int) < (s.localTime - e.joined).toInt) :
    exec .edgeWaitExpiry s = .next (s.resolveEdge e).closeTest := by
  have hexpired : s.expiredEdge = some e := by
    unfold State.expiredEdge
    rw [if_pos hm, hl, List.find?_append, List.find?_eq_none.2 fun d hd => ?_, Option.none_or, List.find?_cons_of_pos]
    · exact decide_eq_true he
    · have := hbefore d hd
      exact fun h => absurd (of_decide_eq_true h) (not_lt.2 this)
  show execEdgeWaitExpiry s = _
  unfold execEdgeWaitExpiry
  rw [hexpired]

/-- The yield hold of a vehicle runs out (R108). -/
theorem exec_yieldHoldExpiry (hm : s.measuringSample = true) {due : LocalTime} (hv : s.vehicleIn k = some v)
    (hp : v.pairing = .owner) (hy : v.yieldClosed = false) (hlost : v.flags.partnerLost = false)
    (hdue : v.holdDue = some due) (hnow : 0 ≤ (s.localTime - due).toInt) :
    exec (.yieldHoldExpiry k) s = .next (s.endHold k v) := by
  have hexpired : s.expiredHold k = some v := by
    unfold State.expiredHold
    rw [if_pos hm, hv, Option.filter_some, if_pos]
    rw [hp, hy, hlost, hdue]
    exact (reached_iff _ _).2 hnow
  show execYieldHoldExpiry k s = _
  unfold execYieldHoldExpiry
  rw [hexpired]

/-- A vehicle with PARTNER-LOST is not screened (R108, R122). -/
theorem complete_lost (hst : s.control.station = .running) (hq : s.link.transmitQueue = [])
    (ht : s.link.transmitter = .idle) (hcamera : s.control.params.camera = 0)
    (htracking : s.control.params.tracking = false) (hmode : s.control.params.overloadMode = .off)
    (hlost : v.flags.partnerLost = true) :
    let p := s.control.params
    let sm := summarize p v.axles
    s.complete v = { s with
      counters := counted 4 s.counters
      output := { s.output with overload := false }
      link := { s.link with
        transmitQueue := queued (.vehicle (v.record p (v.summaryFlags sm)
          (classCode (matchedEntry p.classTable v.axles.length sm)) .notScreened sm))
        transmitter := .waitIdle } } := by
  intro p sm
  have hscreen (entry : Option ClassEntry) :
      screen s.control.params entry (v.summaryFlags sm) v.axles sm = .notScreened :=
    screen_of_not_eligible (by simp [eligible, Flags.barsScreening, Vehicle.summaryFlags, hlost])
  have hplain := complete_plain hst hq ht hcamera htracking hmode v
  simp only [show summarize s.control.params v.axles = sm from rfl, hscreen] at hplain
  exact hplain

/-- Settles O41: the entries by `resolveEdge_unmatched` and `resolveEdge_forwarded`, the close by the laws of `closeTest`. -/
theorem waitsRunOut : Obligations.WaitsRunOut := by
  unfold Obligations.WaitsRunOut
  intro met
  have hmet (v : Vehicle) : v.ownerCloseMet = true ↔ met v := ownerCloseMet_iff v
  have hnotMet (v : Vehicle) : v.ownerCloseMet = false ↔ ¬ met v := by rw [← hmet, Bool.not_eq_true]
  refine ⟨fun s v hv => ?close, fun s v e before after hst heven hl hdistinct => ?edge,
    fun s v due mine hst heven hp hy hlost hdue hnow hmine => ?hold⟩
  case close =>
    intro edge gone ended
    have hedge : s.hasEdge v.number = true ↔ edge := hasEdge_iff s v.number
    have hnone (h : ¬ edge) : s.hasEdge v.number = false := Bool.eq_false_iff.2 fun he => h (hedge.1 he)
    refine ⟨fun h => closeTest_stays hv (.inl (hedge.2 h)), fun h hp => ?_, fun h hp hg => closeTest_yields hv (hnone h) hp hg,
      fun h => closeTest_stays hv (.inr ?_)⟩
    · exact closeTest_completes hv (hnone h) (hp.imp_right fun hp => ⟨hp.1, (hmet v).2 hp.2⟩)
    · exact h.imp_left fun h => ⟨h.1, (hnotMet v).2 h.2⟩
  case edge =>
    intro limit hbefore he hn left openIs closingIs tallied unmatched forwarded more transfer
    have hm : s.measuringSample = true := measuringSample_of ((measuring_iff s).2 (.inl hst)) heven
    have hexec := exec_edgeWaitExpiry hm hl hbefore he
    have hunmatched {k : Slot} (hv : StandsIn k v s) (hp : v.pairing ≠ .yielded) :
        s.resolveEdge e = tallied.setSlot k (some unmatched) := resolveEdge_unmatched hv hp hn hl hdistinct
    have hforwarded {k : Slot} {a : Axle} (hv : StandsIn k v s) (hp : v.pairing = .yielded)
        (ha : v.axles.find? (fun a => a.tag == e.tag) = some a) :
        s.resolveEdge e = (left.produce (transfer a)).setSlot k (some forwarded) :=
      resolveEdge_forwarded hv hp hn hst hl hdistinct ha
    refine ⟨fun hv hc => ?isOpen, fun hv hother => ?isClosing⟩
    case isOpen =>
      have hstands : StandsIn .openSlot v s := .of_slot hv
      refine ⟨fun hp => ?_, fun a hp ha hq ht => ?_⟩
      · rw [hexec, hunmatched hstands hp, closeTest_empty (by exact hc)]
        rfl
      · rw [hexec, hforwarded hstands hp ha, closeTest_empty (by
          show (left.produce (transfer a)).assembler.closingVehicle = none
          rw [produce_assembler]
          exact hc)]
        rw [show left.produce (transfer a) = _ from produce_alone (.inl hst) hq ht]
        rfl
    case isClosing =>
      have hstands : StandsIn .closingSlot v s := .of_slot ⟨hv, hother⟩
      have hmore {t : State} {n : Nat} (ht : t.boundary.edges = before ++ after) (hn : n = v.number) :
          t.hasEdge n = true ↔ more := by
        rw [hasEdge_iff, ht, hn]
      refine ⟨fun hp hstay => ?_, fun hno hp => ?_, fun a hp ha => ?_⟩
      · rw [hexec, hunmatched hstands hp]
        refine congrArg Host.Outcome.next (closeTest_stays (v := unmatched) rfl ?_)
        exact hstay.imp (fun h => (hmore rfl rfl).2 h) fun h => .inl ⟨h.1, (hnotMet v).2 h.2⟩
      · have hpairing : v.pairing ≠ .yielded := by
          rintro h
          rcases hp with hp | ⟨hp, -⟩ <;> exact Pairing.noConfusion (hp.symm.trans h)
        rw [hexec, hunmatched hstands hpairing, closeTest_completes (v := unmatched) rfl
          (Bool.eq_false_iff.2 fun h => hno ((hmore rfl rfl).1 h)) (hp.imp_right fun hp => ⟨hp.1, (hmet v).2 hp.2⟩)]
        rfl
      · intro sent ended
        have hedges : (sent.setSlot .closingSlot (some forwarded)).boundary.edges = before ++ after := by
          show (left.produce (transfer a)).boundary.edges = _
          rw [produce_boundary]
        refine ⟨fun hstay => ?_, fun hno hg => ?_⟩
        · rw [hexec, hforwarded hstands hp ha]
          refine congrArg Host.Outcome.next (closeTest_stays (v := forwarded) rfl ?_)
          exact hstay.imp (fun h => (hmore hedges rfl).2 h) fun h => .inr ⟨hp, h⟩
        · rw [hexec, hforwarded hstands hp ha, closeTest_yields (v := forwarded) rfl
            (Bool.eq_false_iff.2 fun h => hno ((hmore hedges rfl).1 h)) hp hg, setSlot_setSlot]
          unfold State.endYielded
          rw [produce_setSlot]
          rfl
  case hold =>
    intro p clear lost gone sm flags
    have hm : s.measuringSample = true := measuringSample_of ((measuring_iff s).2 (.inl hst)) heven
    have hown : s.edgesOf v.number = mine := hmine.symm
    have hclear : ownCounted v.number s = clear := by
      unfold ownCounted
      rw [hown]
    have hended {k : Slot} (hv : StandsIn k v s) : s.endHold k v = (clear.setSlot k (some lost)).closeTest := by
      have hres := resolveOwn_put (w := v.takePartnerLost) hv rfl (by
        rw [show v.takePartnerLost.pairing = v.pairing from rfl, hp]
        exact Pairing.noConfusion)
      rw [hclear, hown] at hres
      unfold State.endHold
      exact congrArg State.closeTest hres
    refine ⟨fun hv hother hg => ?isClosing, fun hv hc => ?isOpen⟩
    case isClosing =>
      have hstands : StandsIn .closingSlot v s := .of_slot ⟨hv, hother⟩
      have hcompletes : exec (.yieldHoldExpiry .closingSlot) s = .next (gone.complete lost) := by
        rw [exec_yieldHoldExpiry (k := .closingSlot) hm hv hp hy hlost hdue hnow, hended hstands, closeTest_completes (v := lost) rfl
          (hclear ▸ not_hasEdge_ownCounted v.number s .closingSlot (some lost))
          (.inr ⟨hp, (hmet lost).2 ⟨hg, .inr rfl⟩⟩), setSlot_setSlot]
        rfl
      refine ⟨hcompletes, fun hcamera htracking hmode hq ht => hcompletes.trans (congrArg Host.Outcome.next ?_)⟩
      exact complete_lost (s := gone) hst hq ht hcamera htracking hmode (v := lost) rfl
    case isOpen =>
      have hstands : StandsIn .openSlot v s := .of_slot hv
      rw [exec_yieldHoldExpiry (k := .openSlot) hm hv hp hy hlost hdue hnow, hended hstands, closeTest_empty (by exact hc)]
      rfl

end Sys2Proof.Machine.Laws
end

section
/-!
# Notices from a neighbour and what a match decides (chapter 06)

`exec_halfAxle` with `takeHalfAxle_*` says what a HALF_AXLE of each side does; `makeMatch_owner`, `makeMatch_yielded` and
`makeMatch_first` say what a match does in each status.
-/
namespace Sys2Proof.Machine.Laws
open Sys2Proof.Machine.Safety

variable {s t : State} {k : Slot} {v : Vehicle} {e : EdgeEntry} {f : RxFrame} {side : Half} {n : RemoteNotice}

/-! ## The remote lists -/

theorem exec_halfAxle (hm : s.measuring = true) (hf : headIs f s) (hk : f.kind = .halfAxle) (hn : f.source ≠ 0) :
    exec .halfAxle s = .next (s.dispatched.takeHalfAxle f) := by
  show execHalfAxle s = _
  unfold execHalfAxle
  have hhead : s.headOf .halfAxle = some f := hk ▸ headOf_of_headIs hf hn
  rw [hhead]
  exact congrArg Host.Outcome.next (if_pos hm)

/-- A HALF-AXLE belongs to the side of this lane that faces its lane (R95). -/
theorem acceptedSide_iff (p : Params) (source : Nat) (o : Option Half) (side : Half) :
    State.acceptedSide p source o = some side ↔ o = some side.other ∧ source = p.neighbour.get side := by
  have hleft : p.neighbour.get .left = p.neighbour.left := rfl
  have hright : p.neighbour.get .right = p.neighbour.right := rfl
  rcases o with _ | _ | _ <;> cases side <;> simp [State.acceptedSide, Half.other, hleft, hright]

theorem takeHalfAxle_foreign (h : State.acceptedSide s.control.params f.source (halfAxleFields f.payload).side = none) :
    s.takeHalfAxle f = s := by
  unfold State.takeHalfAxle
  rw [h]

theorem takeHalfAxle_matches
    (h : State.acceptedSide s.control.params f.source (halfAxleFields f.payload).side = some side)
    (he : s.edgeFor side (State.noticeOf f s.localTime) = some e) :
    s.takeHalfAxle f = (s.makeMatch e (State.noticeOf f s.localTime)).closeTest := by
  unfold State.takeHalfAxle
  rw [h]
  simp only [he]

theorem takeHalfAxle_unmatched
    (h : State.acceptedSide s.control.params f.source (halfAxleFields f.payload).side = some side)
    (he : s.edgeFor side (State.noticeOf f s.localTime) = none) :
    s.takeHalfAxle f = if s.yieldsTo (State.noticeOf f s.localTime) then s else s.keepNotice side (State.noticeOf f s.localTime) := by
  unfold State.takeHalfAxle
  rw [h]
  simp only [he]

theorem edgeFor_eq_none (he : ∀ d ∈ s.boundary.edges, d.side = side → ¬ s.edgeMatches d n = true) :
    s.edgeFor side n = none := by
  refine (nearest_none _ _).2 (List.filter_eq_nil_iff.2 fun d hd => ?_)
  rw [Bool.and_eq_true, decide_eq_true_eq]
  exact fun h => he d hd h.1 h.2

/-- Some vehicle of this station yields to the notice's source and vehicle (R95). -/
theorem yieldsTo_iff (s : State) (n : RemoteNotice) : s.yieldsTo n = true ↔
    ∃ v, (s.assembler.openVehicle = some v ∨ s.assembler.closingVehicle = some v) ∧
      v.pairing = .yielded ∧ v.peer = n.source ∧ v.peerVehicle = n.vehicle := by
  simp [State.yieldsTo, Option.any_eq_true, or_and_right, exists_or, and_assoc]

theorem keepNotice_room (hroom : (s.boundary.remote.get side).length < 8) :
    s.keepNotice side n = s.setRemote side (s.boundary.remote.get side ++ [n]) :=
  if_neg (not_le.2 hroom)

theorem keepNotice_full {oldest : RemoteNotice} {rest : List RemoteNotice}
    (hl : s.boundary.remote.get side = oldest :: rest) (hfull : rest.length = 7) :
    s.keepNotice side n = (s.setRemote side (rest ++ [n])).bump .noticesExpired := by
  unfold State.keepNotice
  rw [hl]
  exact if_pos (by rw [List.length_cons, hfull])

/-- The oldest notice of a side whose wait has passed W_s leaves its list (R96). -/
theorem exec_remoteNoticeExpiry {rest : List RemoteNotice} (hm : s.measuringSample = true)
    (hl : s.boundary.remote.get side = n :: rest)
    (hage : (s.localTime - n.accepted).toInt > (s.control.params.edgeWait * 16384 / 1000 : Nat)) :
    exec (.remoteNoticeExpiry side) s = .next ((s.setRemote side rest).bump .noticesExpired) := by
  have hexpired : s.expiredNotice side = some n := by
    unfold State.expiredNotice
    rw [if_pos hm, hl, List.find?_cons_of_pos (by exact decide_eq_true hage)]
  show execRemoteNoticeExpiry side s = _
  unfold execRemoteNoticeExpiry
  rw [hexpired, hl]
  simp only [List.erase_cons_head]

/-- Settles O42: the sides by `acceptedSide_iff`, the rest by the laws of `takeHalfAxle` and `keepNotice`. -/
theorem remoteNoticesKept : Obligations.RemoteNoticesKept := by
  refine ⟨fun s f hm hf hk hsource => ?taken, fun s n rest hm heven hage => ?expiry⟩
  case expiry =>
    have hsample := measuringSample_of hm heven
    exact ⟨fun hl => exec_remoteNoticeExpiry (side := .left) hsample hl hage,
      fun hl => exec_remoteNoticeExpiry (side := .right) hsample hl hage⟩
  case taken =>
    intro p h notice fromRight fromLeft fits unmatched yields
    have hexec := exec_halfAxle hm hf hk hsource
    have hright : State.acceptedSide p f.source h.side = some .right ↔ fromRight := acceptedSide_iff _ _ _ _
    have hleft : State.acceptedSide p f.source h.side = some .left ↔ fromLeft := acceptedSide_iff _ _ _ _
    have hyields : s.dispatched.yieldsTo notice = true ↔ yields := yieldsTo_iff _ _
    have hfits (e : EdgeEntry) : s.dispatched.edgeMatches e notice = true ↔ fits e := edgeMatches_iff _ _ _
    have hfor (side : Half) (hu : unmatched side) : s.dispatched.edgeFor side notice = none :=
      edgeFor_eq_none fun d hd hs => mt (hfits d).1 (hu d hd hs)
    have hdropped {side : Half} (ha : State.acceptedSide p f.source h.side = some side) (hu : unmatched side) (hy : yields) :
        exec .halfAxle s = .next { s with link := withoutHead s.link } := by
      rw [hexec, takeHalfAxle_unmatched (s := s.dispatched) ha (hfor side hu)]
      exact congrArg Host.Outcome.next (if_pos (hyields.2 hy))
    have hkept {side : Half} (ha : State.acceptedSide p f.source h.side = some side) (hu : unmatched side) (hy : ¬ yields) :
        exec .halfAxle s = .next (s.dispatched.keepNotice side notice) := by
      rw [hexec, takeHalfAxle_unmatched (s := s.dispatched) ha (hfor side hu)]
      exact congrArg Host.Outcome.next (if_neg (mt hyields.1 hy))
    refine ⟨fun hr hl => ?_, fun hu hy => ?_, fun hr hu hy => ⟨fun hroom => ?_, fun oldest rest hlist hfull => ?_⟩,
      fun hl hu hy => ⟨fun hroom => ?_, fun oldest rest hlist hfull => ?_⟩⟩
    · rw [hexec, takeHalfAxle_foreign]
      · rfl
      · refine Option.eq_none_iff_forall_ne_some.2 fun side ha => ?_
        cases side
        · exact hl (hleft.1 ha)
        · exact hr (hright.1 ha)
    · rcases hu with ⟨hr, hu⟩ | ⟨hl, hu⟩
      · exact hdropped (hright.2 hr) hu hy
      · exact hdropped (hleft.2 hl) hu hy
    · rw [hkept (hright.2 hr) hu hy, keepNotice_room (by exact hroom)]
      rfl
    · rw [hkept (hright.2 hr) hu hy, keepNotice_full (by exact hlist) hfull]
      rfl
    · rw [hkept (hleft.2 hl) hu hy, keepNotice_room (by exact hroom)]
      rfl
    · rw [hkept (hleft.2 hl) hu hy, keepNotice_full (by exact hlist) hfull]
      rfl

/-! ## Matches -/

/-- The edge list without an entry and every other of its vehicle and axle. -/
def besides (e : EdgeEntry) (s : State) : List EdgeEntry :=
  s.boundary.edges.filter (fun d => !(d.vehicle == e.vehicle && d.tag == e.tag))

/-- The entries of a vehicle on the other side of a matched one. -/
def otherSide (n : Nat) (e : EdgeEntry) (s : State) : List EdgeEntry :=
  (besides e s).filter (fun d => d.vehicle == n && d.side != e.side)

/-- The half that a notice brings. -/
def noticeHalf (n : RemoteNotice) : HalfLoad :=
  { load := n.load, saturated := n.saturated, mismatch := n.mismatch, remote := true }

theorem addRemoteHalf_eq {a : Axle} (hv : StandsIn k v s) (hn : v.number = e.vehicle)
    (ha : v.axles.find? (fun b => b.tag == e.tag) = some a) (n : RemoteNotice) :
    s.addRemoteHalf e n = s.setSlot k (some (v.fillAxle a e.side.other (noticeHalf n))) := by
  unfold State.addRemoteHalf
  rw [← hn, hv.update, ha]
  rfl

theorem vehicle_dropEdge (hv : StandsIn k v s) (hn : v.number = e.vehicle) :
    (s.dropEdge e.vehicle e.tag).vehicle e.vehicle = some v :=
  (congrArg (s.dropEdge e.vehicle e.tag).vehicle hn).symm.trans
    (StandsIn.congr (t := s.dropEdge e.vehicle e.tag) hv rfl rfl).vehicle

/-- A match of an OWNER vehicle adds the remote half (R102). -/
theorem makeMatch_owner (hv : StandsIn k v s) (hn : v.number = e.vehicle) (hp : v.pairing = .owner) (n : RemoteNotice) :
    s.makeMatch e n = (withEdges s (besides e s)).addRemoteHalf e n := by
  unfold State.makeMatch
  simp only [vehicle_dropEdge hv hn, hp]
  rfl

/-- A later match of a YIELDED vehicle only takes its entry (R103). -/
theorem makeMatch_yielded (hv : StandsIn k v s) (hn : v.number = e.vehicle) (hp : v.pairing = .yielded)
    (n : RemoteNotice) : s.makeMatch e n = withEdges s (besides e s) := by
  unfold State.makeMatch
  simp only [vehicle_dropEdge hv hn, hp]
  rfl

theorem localOwns_iff (own : Nat) (e : EdgeEntry) (n : RemoteNotice) : State.localOwns own e n = true ↔
    n.index < e.index ∨ n.index = e.index ∧ (n.load < e.load ∨ n.load = e.load ∧ own < n.source) := by
  unfold State.localOwns
  split
  · rw [decide_eq_true_eq]
    omega
  · split <;> rw [decide_eq_true_eq] <;> omega

/-- The first match of a vehicle decides its pairing, and its entries on the other side resolve; an owner then adds the
remote half, and a yielder forwards the axles that neither match nor wait (R101 to R103). -/
theorem makeMatch_first (hv : StandsIn k v s) (hn : v.number = e.vehicle) (hp : v.pairing = .unpaired)
    (n : RemoteNotice) :
    let owner := State.localOwns s.control.number e n
    let t := State.resolveEdges (otherSide v.number e s) ((withEdges s (besides e s)).setSlot k
      (some (State.pairVehicle owner n s.localTime s.control.params v)))
    s.makeMatch e n = if owner then t.addRemoteHalf e n
      else (v.axles.filter (fun a => a.tag != e.tag &&
        !(besides e s).any (fun d => d.vehicle == v.number && d.tag == a.tag))).foldl
          (fun t a => t.forwardAxle v.number a) t := by
  intro owner t
  have hstands : StandsIn k v (s.dropEdge e.vehicle e.tag) := hv.congr rfl rfl
  have hothers : (((s.dropEdge e.vehicle e.tag).setSlot k (some (State.pairVehicle owner n s.localTime s.control.params
      v))).edgesOf v.number).filter (fun d => d.side ≠ e.side) = otherSide v.number e s := by
    have hl : ((s.dropEdge e.vehicle e.tag).setSlot k (some (State.pairVehicle owner n s.localTime s.control.params
      v))).boundary.edges = besides e s := by cases k <;> rfl
    unfold State.edgesOf otherSide
    rw [hl, List.filter_filter]
    refine List.filter_congr fun d _ => ?_
    rw [Bool.and_comm]
    congr 1
    cases d.side <;> cases e.side <;> rfl
  have hwaits (a : Axle) : (((s.dropEdge e.vehicle e.tag).edgesOf v.number).map EdgeEntry.tag).contains a.tag =
      (besides e s).any (fun d => d.vehicle == v.number && d.tag == a.tag) := by
    rw [Bool.eq_iff_iff]
    simp [State.edgesOf, besides, State.dropEdge, and_assoc, and_left_comm]
  unfold State.makeMatch
  have hother (a : Axle) : decide (a.tag ≠ e.tag) = (a.tag != e.tag) := by
    rw [bne, beq_eq_decide, decide_not]
  simp only [vehicle_dropEdge hv hn, hp, hstands.update, hwaits, hother,
    show (s.dropEdge e.vehicle e.tag).control = s.control from rfl,
    show (s.dropEdge e.vehicle e.tag).localTime = s.localTime from rfl,
    show State.localOwns s.control.number e n = owner from rfl, hothers]
  rfl

/-- The edge list without a matched entry and those of its vehicle on the other side. -/
def leftBeside (n : Nat) (e : EdgeEntry) (s : State) : List EdgeEntry :=
  (besides e s).filter (staysBeside (otherSide n e s))

theorem otherSide_vehicle {m : Nat} {d : EdgeEntry} (hd : d ∈ otherSide m e s) : d.vehicle = m := by
  have := (List.mem_filter.1 hd).2
  rw [Bool.and_eq_true, beq_iff_eq] at this
  exact this.1

/-- The entries on the other side resolve in an owner, counted, and it takes EDGE-UNMATCHED (R100, R101). -/
theorem resolveOthers_unmatched {w : Vehicle} (hv : StandsIn k v s) (hw : w.number = v.number)
    (hp : w.pairing ≠ .yielded) :
    State.resolveEdges (otherSide v.number e s) ((withEdges s (besides e s)).setSlot k (some w)) =
      ({ withEdges s (leftBeside v.number e s) with
        counters := if otherSide v.number e s = [] then s.counters
          else s.counters.set 6 (min 65535 (s.counters[6] + (otherSide v.number e s).length)) } : State).setSlot k
        (some { w with flags := { w.flags with
          edgeUnmatched := w.flags.edgeUnmatched || !(otherSide v.number e s).isEmpty } }) := by
  have hstands : StandsIn k w ((withEdges s (besides e s)).setSlot k (some w)) :=
    StandsIn.set (s := withEdges s (besides e s)) (hv.congr rfl rfl) w hw
  rw [resolveEdges_kept _ k w _ hstands hp fun d hd => (otherSide_vehicle hd).trans hw.symm, countUnmatched_eq]
  have hedges : ((withEdges s (besides e s)).setSlot k (some w)).boundary.edges = besides e s := by cases k <;> rfl
  simp only [List.length_eq_zero_iff, hedges]
  cases k <;> rfl

/-- The vehicle with the remote half of a notice on the axle of an entry (R83, R102). -/
def filledBy (e : EdgeEntry) (n : RemoteNotice) (a : Axle) (v : Vehicle) : Vehicle :=
  { v with
    axles := v.axles.map (fun b => if b.tag = e.tag then b.fill e.side.other (noticeHalf n) else b)
    flags := { v.flags with
      straddle := true, mismatch := v.flags.mismatch || (a.fill e.side.other (noticeHalf n)).mismatch
      saturated := v.flags.saturated || (a.fill e.side.other (noticeHalf n)).saturated } }

theorem fillAxle_notice {a : Axle} (ha : v.axles.find? (fun b => b.tag == e.tag) = some a) (n : RemoteNotice) :
    v.fillAxle a e.side.other (noticeHalf n) = filledBy e n a v := by
  have htag : a.tag = e.tag := by simpa using List.find?_some ha
  unfold Vehicle.fillAxle filledBy
  rw [htag]
  rfl

/-- Settles O43: the entry by `edgeFor`, the match by the laws of `makeMatch`. -/
theorem firstMatchDecidesOwner : Obligations.FirstMatchDecidesOwner := by
  refine ⟨fun s f before after e hm hf hk hsource => ?taken, fun s k v a e n hn ha hslot => ?matched⟩
  case taken =>
    intro p h notice distance fits hside hl he hb ha
    have haccepted : State.acceptedSide p f.source h.side = some e.side := by
      rw [acceptedSide_iff]
      cases hs : e.side <;> rw [hs] at hside <;> exact hside
    have hfits (d : EdgeEntry) :
        (decide (d.side = e.side) && s.dispatched.edgeMatches d notice) = true ↔ fits d := by
      rw [Bool.and_eq_true, decide_eq_true_eq, edgeMatches_iff]
      rfl
    have hfor : s.dispatched.edgeFor e.side notice = some e := by
      unfold State.edgeFor
      rw [show s.dispatched.boundary.edges = before ++ e :: after from hl]
      exact nearest_filter_split ((hfits e).2 he) (fun d hd hq => hb d hd ((hfits d).1 hq))
        fun d hd hq => ha d hd ((hfits d).1 hq)
    rw [exec_halfAxle hm hf hk hsource, takeHalfAxle_matches (s := s.dispatched) haccepted hfor]
    rfl
  case matched =>
    intro put remote fill filled rest others left owns
    have hstands : StandsIn k v s := .of_slot hslot
    have hput (t : State) (w : Vehicle) (h : t.assembler = s.assembler) :
        t.setSlot k (some w) = { t with assembler := put w } := by
      cases k
      · show ({ t with assembler := { t.assembler with openVehicle := some w } } : State) = _
        rw [h]
      · show ({ t with assembler := { t.assembler with closingVehicle := some w } } : State) = _
        rw [h]
    have hfill (b : Axle) : b.fill e.side.other (noticeHalf n) = fill b := by
      show _ = match e.side with
        | .left => { b with right := some remote }
        | .right => { b with left := some remote }
      cases e.side <;> rfl
    have hfilled (w : Vehicle) : filledBy e n a w = { w with
        axles := w.axles.map (fun b => if b.tag = e.tag then fill b else b)
        flags := { w.flags with
          straddle := true, mismatch := w.flags.mismatch || (fill a).mismatch
          saturated := w.flags.saturated || (fill a).saturated } } := by
      unfold filledBy
      simp only [hfill]
    refine ⟨fun hp => ?owner, fun hp => makeMatch_yielded hstands hn hp n, fun hp ho => ?owns, fun hp hy hone hnone => ?yields⟩
    case owner =>
      have hleft : StandsIn k v (withEdges s (besides e s)) := hstands.congr rfl rfl
      rw [makeMatch_owner hstands hn hp, addRemoteHalf_eq hleft hn ha, fillAxle_notice ha, hfilled]
      exact hput (withEdges s (besides e s)) filled rfl
    case owns =>
      have hdecides : State.localOwns s.control.number e n = true := (localOwns_iff _ _ _).2 ho
      have hfirst := makeMatch_first hstands hn hp n
      rw [hdecides] at hfirst
      have hres := resolveOthers_unmatched (e := e) (w := State.pairVehicle true n s.localTime s.control.params v) hstands rfl
        Pairing.noConfusion
      have hleft : StandsIn k v { withEdges s (leftBeside v.number e s) with
        counters := if otherSide v.number e s = [] then s.counters
          else s.counters.set 6 (min 65535 (s.counters[6] + (otherSide v.number e s).length)) } := hstands.congr rfl rfl
      rw [hfirst, if_pos rfl, hres]
      generalize hw : ({ State.pairVehicle true n s.localTime s.control.params v with flags := _ } : Vehicle) = w
      have hfind : w.axles.find? (fun b => b.tag == e.tag) = some a := hw ▸ ha
      have hnumber : w.number = v.number := hw ▸ rfl
      refine (addRemoteHalf_eq (hleft.set w hnumber) (hnumber.trans hn) hfind n).trans ?_
      rw [setSlot_setSlot, fillAxle_notice hfind, hfilled, ← hw]
      exact hput _ _ rfl
    case yields =>
      have hdecides : State.localOwns s.control.number e n = false :=
        Bool.eq_false_iff.2 (mt (localOwns_iff _ _ _).1 hy)
      have hfirst := makeMatch_first hstands hn hp n
      rw [hdecides] at hfirst
      rw [hfirst, show otherSide v.number e s = [] from hnone]
      have hmatched : (v.axles.filter (fun b => b.tag != e.tag &&
          !(besides e s).any (fun d => d.vehicle == v.number && d.tag == b.tag))) = [] := by
        rw [hone, List.filter_cons_of_neg, List.filter_nil]
        have htag : a.tag = e.tag := by simpa using List.find?_some ha
        simp [htag]
      rw [hmatched]
      exact hput (withEdges s (besides e s)) _ rfl

end Sys2Proof.Machine.Laws
end

section
/-!
# The yielder and the occupied closing slot (chapter 06)

A yielder's frames are those of `sends`; `endEarlier_of` reduces the end of the closing vehicle to the entries that resolve.
-/
namespace Sys2Proof.Machine.Laws
open Sys2Proof.Machine.Safety

variable {s t : State} {k : Slot} {v w : Vehicle} {e : EdgeEntry} {f : RxFrame} {n : RemoteNotice}

/-! ## The yielder -/

theorem sends_assembler (v : Vehicle) (l : List Axle) : ∀ s, (sends v l s).assembler = s.assembler := by
  induction l with
  | nil => exact fun s => rfl
  | cons a l ih => exact fun s => (ih _).trans (produce_assembler _ _)

theorem sends_control (v : Vehicle) (l : List Axle) : ∀ s, (sends v l s).control = s.control := by
  induction l with
  | nil => exact fun s => rfl
  | cons a l ih => exact fun s => (ih _).trans (produce_control _ _)

theorem sends_append (v : Vehicle) (l m : List Axle) (s : State) : sends v (l ++ m) s = sends v m (sends v l s) :=
  List.foldl_append

theorem setSlot_control (k : Slot) (w : Option Vehicle) (s : State) : (s.setSlot k w).control = s.control := by
  cases k <;> rfl

theorem StandsIn.sends (h : StandsIn k w s) (v : Vehicle) (l : List Axle) : StandsIn k w (sends v l s) :=
  h.congr (by rw [sends_assembler]) (by rw [sends_assembler])

theorem forwardedMore_more (v : Vehicle) (m n : Nat) :
    forwardedMore (forwardedMore v m) n = forwardedMore v (m + n) := by
  unfold forwardedMore
  simp only [Nat.add_assoc]

/-- Nothing is forwarded outside RUNNING (R103). -/
theorem forwards_mute (hr : s.control.station ≠ .running) (m : Nat) (l : List Axle) :
    l.foldl (fun s a => s.forwardAxle m a) s = s := by
  induction l with
  | nil => rfl
  | cons a l ih =>
    rw [List.foldl_cons, forward_mute hr]
    exact ih

theorem withEdges_besides_set (k : Slot) (w : Option Vehicle) (s : State) (l : List EdgeEntry) :
    ((withEdges s l).setSlot k w).boundary.edges = l := by
  cases k <;> rfl

/-- The axles that a first match leaves to a yielder: those of the entries on the other side, then those that neither match
nor wait (R101, R103). -/
def uncovered (v : Vehicle) (e : EdgeEntry) (s : State) : List Axle :=
  (otherSide v.number e s).filterMap (fun d => v.axles.find? (fun a => a.tag == d.tag)) ++
    v.axles.filter (fun a => a.tag != e.tag && !(besides e s).any (fun d => d.vehicle == v.number && d.tag == a.tag))

/-- The first match of a vehicle that yields, in RUNNING and in MUTE (R101, R103). -/
theorem makeMatch_yields (hv : StandsIn k v s) (hn : v.number = e.vehicle) (hp : v.pairing = .unpaired)
    (ho : State.localOwns s.control.number e n = false) :
    let w := State.pairVehicle false n s.localTime s.control.params v
    (s.control.station = .running → s.makeMatch e n = sends w (uncovered v e s)
      ((withEdges s (leftBeside v.number e s)).setSlot k (some (forwardedMore w (uncovered v e s).length)))) ∧
    (s.control.station = .mute .fromRunning →
      s.makeMatch e n = (withEdges s (leftBeside v.number e s)).setSlot k (some w)) := by
  intro w
  have hfirst := makeMatch_first hv hn hp n
  rw [ho] at hfirst
  simp only [Bool.false_eq_true, if_false] at hfirst
  have hstands : StandsIn k w ((withEdges s (besides e s)).setSlot k (some w)) :=
    StandsIn.set (s := withEdges s (besides e s)) (hv.congr rfl rfl) w rfl
  have hcontrol : ((withEdges s (besides e s)).setSlot k (some w)).control = s.control := setSlot_control _ _ _
  have hedges : ((withEdges s (besides e s)).setSlot k (some w)).boundary.edges.filter
      (staysBeside (otherSide v.number e s)) = leftBeside v.number e s := by
    rw [withEdges_besides_set]
    rfl
  have hwith (l : List EdgeEntry) : withEdges ((withEdges s (besides e s)).setSlot k (some w)) l =
      (withEdges s l).setSlot k (some w) := by
    cases k <;> rfl
  have howned : ∀ d ∈ otherSide v.number e s, d.vehicle = w.number := fun d hd => otherSide_vehicle hd
  refine ⟨fun hr => ?_, fun hr => ?_⟩
  · have hsent := resolveEdges_yielded (otherSide v.number e s) k w _ hstands rfl howned (hcontrol ▸ hr)
    rw [hedges, hwith, setSlot_setSlot] at hsent
    rw [hfirst, hsent]
    have hmore (m : Nat) : StandsIn k (forwardedMore w m)
        ((withEdges s (leftBeside v.number e s)).setSlot k (some (forwardedMore w m))) :=
      StandsIn.set (s := withEdges s (leftBeside v.number e s)) (hv.congr rfl rfl) (forwardedMore w m) rfl
    refine (forwards_run _ k _ _ ((hmore _).sends w _) ?_).trans ?_
    · rw [sends_control, setSlot_control]
      exact hr
    · rw [sends_setSlot, setSlot_setSlot, forwardedMore_more]
      unfold uncovered
      rw [sends_append, List.length_append]
      rfl
  · rw [hfirst, resolveEdges_mute _ k w _ hstands rfl howned (hcontrol ▸ hr), hedges, hwith, forwards_mute]
    rw [setSlot_control, show (withEdges s (leftBeside v.number e s)).control = s.control from rfl, hr]
    exact Station.noConfusion

/-- Settles O44: the first match by `makeMatch_yields`, each later axle by what follows its placement. -/
theorem yielderForwards : Obligations.YielderForwards := by
  unfold Obligations.YielderForwards
  intro transfer
  refine ⟨fun s k v e n hp hn hslot hy => ?first, fun s v a hv hp => ?later⟩
  case first =>
    intro rest others left sent yielded
    have hyields := makeMatch_yields (n := n) (.of_slot hslot) hn.symm hp
      (Bool.eq_false_iff.2 (mt (localOwns_iff _ _ _).1 hy))
    have hset (count : Nat) : (withEdges s left).setSlot k (some { v with
        pairing := .yielded, peer := n.source, peerVehicle := n.vehicle, forwarded := count }) = yielded count := by
      cases k <;> rfl
    refine ⟨fun hr => ?_, fun hr => ?_⟩
    · rw [hyields.1 hr, ← hset]
      rfl
    · rw [hyields.2 hr, ← hset]
      rfl
  case later =>
    obtain ⟨-, -, hrun, hmute⟩ := afterPlacement_places hv a
    exact ⟨fun hr => hrun hp hr, fun hr => hmute hp hr⟩

/-! ## The occupied closing slot -/

/-- The vehicle that stands in the closing slot ends as its entries have left it (R110). -/
theorem endEarlier_of {x : Vehicle}
    (h : s.resolveEdges (s.edgesOf w.number) = t.setSlot .closingSlot (some x)) :
    s.endEarlier w = match x.pairing with
      | .yielded => (t.setSlot .closingSlot none).endYielded x
      | .unpaired => (t.setSlot .closingSlot none).complete x
      | .owner => (t.setSlot .closingSlot none).complete (if x.ownerCloseMet then x else x.takePartnerLost) := by
  unfold State.endEarlier
  rw [h, ← setSlot_setSlot .closingSlot (some x) none t]
  rfl

theorem enterClosing_occupied (hw : s.assembler.closingVehicle = some w) (v : Vehicle) :
    s.enterClosing v = (s.endEarlier w).setSlot .closingSlot (some v) := by
  unfold State.enterClosing
  rw [hw]

/-- Settles O45: the entries by `resolveOwn_unmatched` and `resolveOwn_forwarded`, the end by `endEarlier_of`. -/
theorem occupiedClosingSlot : Obligations.OccupiedClosingSlot := by
  intro s v w mine hopen hw hmine clear unmatched marked after closed
  have hstands : StandsIn .closingSlot w s := .of_slot ⟨hw, fun x hx => by rw [hopen] at hx; cases hx⟩
  have hown : s.edgesOf w.number = mine := hmine.symm
  have hcleared : (ownCounted w.number s).setSlot .closingSlot none = unmatched := by
    show _ = if mine = [] then clear else { clear with
      counters := s.counters.set 6 (min 65535 (s.counters[6] + mine.length)) }
    unfold ownCounted
    rw [hown]
    split <;> rfl
  have hmet : w.ownerCloseMet = true ↔ closed := ownerCloseMet_iff w
  have hmarked : marked false = { w with flags := { w.flags with
      edgeUnmatched := w.flags.edgeUnmatched || !mine.isEmpty } } := by
    show ({ w with flags := { w.flags with edgeUnmatched := w.flags.edgeUnmatched || !mine.isEmpty,
                                           partnerLost := w.flags.partnerLost || false } } : Vehicle) = _
    rw [Bool.or_false]
  have hlost : marked true = (marked false).takePartnerLost := by
    show ({ w with flags := { w.flags with edgeUnmatched := w.flags.edgeUnmatched || !mine.isEmpty,
                                           partnerLost := w.flags.partnerLost || true } } : Vehicle) = _
    rw [Bool.or_true, hmarked]
    rfl
  have hkept (hp : w.pairing ≠ .yielded) : s.resolveEdges (s.edgesOf w.number) =
      (ownCounted w.number s).setSlot .closingSlot (some (marked false)) := by
    rw [resolveOwn_unmatched hstands hp, hown, hmarked]
  have howner (hp : w.pairing = .owner) : s.enterClosing v =
      after (unmatched.complete (if w.ownerCloseMet then marked false else marked true)) := by
    have hclose : (marked false).ownerCloseMet = w.ownerCloseMet := by rw [hmarked]; rfl
    rw [enterClosing_occupied hw, endEarlier_of (hkept (by rw [hp]; exact Pairing.noConfusion)), hcleared, hlost, ← hclose,
      show (marked false).pairing = .owner from hp]
    rfl
  refine ⟨fun hp => ?_, fun hp hc => ?_, fun hp hc => ?_, fun hp hr axles haxles => ?_⟩
  · rw [enterClosing_occupied hw, endEarlier_of (hkept (by rw [hp]; exact Pairing.noConfusion)), hcleared,
      show (marked false).pairing = .unpaired from hp]
    rfl
  · rw [howner hp, if_pos (hmet.2 hc)]
  · rw [howner hp, if_neg (mt hmet.1 hc)]
  · intro sent ended
    have hres := resolveOwn_forwarded hstands hp hr (axles := axles) (by rw [hown]; exact haxles)
    rw [enterClosing_occupied hw, endEarlier_of hres, show (forwardedMore w axles.length).pairing = .yielded from hp]
    unfold State.endYielded
    rw [sends_setSlot]
    rfl

end Sys2Proof.Machine.Laws
end

section
/-!
# Transfers, the yielder's end, and a partner that restarts (chapter 06)

`ownerFor_slot` and `ownerFor_none` say which vehicle a frame of a yielder goes to; `mergeTransfer_*` and
`partnerRestart_eq` say what becomes of it.
-/
namespace Sys2Proof.Machine.Laws
open Sys2Proof.Machine.Safety

variable {s t : State} {k : Slot} {v w : Vehicle} {f : RxFrame} {a : Axle}

/-! ## The vehicle of a frame -/

theorem takesTransfers_iff (source number : Nat) (v : Vehicle) : State.takesTransfers source number v = true ↔
    v.pairing = .owner ∧ v.peer = source ∧ v.number = number ∧ v.flags.partnerLost = false := by
  simp [State.takesTransfers, and_assoc]

theorem ownerFor_none {source number : Nat}
    (h : ∀ v, s.assembler.openVehicle = some v ∨ s.assembler.closingVehicle = some v →
      ¬ State.takesTransfers source number v = true) : s.ownerFor source number = none := by
  unfold State.ownerFor
  rw [Option.filter_eq_none_iff.2 fun v hv => h v (.inl hv), Option.filter_eq_none_iff.2 fun v hv => h v (.inr hv)]

theorem ownerFor_slot {source number : Nat} (hv : State.takesTransfers source number v = true)
    (hslot : match k with
      | .openSlot => s.assembler.openVehicle = some v
      | .closingSlot => s.assembler.closingVehicle = some v ∧
        ∀ w, s.assembler.openVehicle = some w → ¬ State.takesTransfers source number w = true) :
    s.ownerFor source number = some (k, v) := by
  unfold State.ownerFor
  cases k
  · rw [show s.assembler.openVehicle = some v from hslot, Option.filter_some, if_pos hv]
  · obtain ⟨hclosing, hopen⟩ := hslot
    rw [Option.filter_eq_none_iff.2 fun w hw => hopen w hw, hclosing, Option.filter_some, if_pos hv]

/-! ## The end of a yielder -/

theorem exec_yieldClosed (hm : s.measuring = true) (hf : headIs f s) (hk : f.kind = .yieldClosed) (hn : f.source ≠ 0) :
    exec .yieldClosed s = .next (s.dispatched.takeYieldClosed f) := by
  show execYieldClosed s = _
  unfold execYieldClosed
  have hhead : s.headOf .yieldClosed = some f := hk ▸ headOf_of_headIs hf hn
  rw [hhead]
  exact congrArg Host.Outcome.next (if_pos hm)

/-- An OWNER vehicle takes the mark, and the close of the closing slot is tested (R107, R109). -/
theorem takeYieldClosed_taken (ho : (yieldFields f.payload).owner = s.control.number)
    (h : s.ownerFor f.source (yieldFields f.payload).vehicle = some (k, v)) :
    s.takeYieldClosed f = (s.setSlot k (some { v with
      yieldClosed := true
      flags := { v.flags with
        incomplete := v.flags.incomplete || v.received < (yieldFields f.payload).forwarded } })).closeTest := by
  unfold State.takeYieldClosed
  simp only [h]
  exact if_neg (not_not.2 ho)

theorem takeYieldClosed_unused (h : (yieldFields f.payload).owner ≠ s.control.number ∨
    s.ownerFor f.source (yieldFields f.payload).vehicle = none) : s.takeYieldClosed f = s := by
  unfold State.takeYieldClosed
  rcases h with h | h
  · exact if_pos h
  · simp only [h]
    exact ite_self _

/-- Settles O47: the vehicle by `ownerFor`, the close by the laws of `closeTest`. -/
theorem yieldClosedTaken : Obligations.YieldClosedTaken := by
  intro s f hm hf hk hsource y takes marked closingIs
  have hexec := exec_yieldClosed hm hf hk hsource
  have htakes (v : Vehicle) : State.takesTransfers f.source y.vehicle v = true ↔ takes v := takesTransfers_iff _ _ _
  refine ⟨fun h => ?_, fun v ho hv hc ht => ?_, fun v ho hv ht hopen => ?_⟩
  · rw [hexec, takeYieldClosed_unused (s := s.dispatched)]
    · rfl
    · exact h.imp_right fun h => ownerFor_none fun v hv => mt (htakes v).1 (h v hv)
  · have howner : s.dispatched.ownerFor f.source y.vehicle = some (.openSlot, v) := ownerFor_slot ((htakes v).2 ht) hv
    rw [hexec, takeYieldClosed_taken (s := s.dispatched) ho howner, closeTest_empty (by exact hc)]
    rfl
  · intro edge
    have howner : s.dispatched.ownerFor f.source y.vehicle = some (.closingSlot, v) :=
      ownerFor_slot ((htakes v).2 ht) ⟨hv, fun w hw => mt (htakes w).1 (hopen w hw)⟩
    have htaken : exec .yieldClosed s = .next (s.dispatched.setSlot .closingSlot (some (marked v))).closeTest := by
      rw [hexec, takeYieldClosed_taken (s := s.dispatched) ho howner]
    have hedge : (s.dispatched.setSlot .closingSlot (some (marked v))).hasEdge (marked v).number = true ↔ edge :=
      hasEdge_iff _ _
    have hclose : (marked v).ownerCloseMet = v.gapDueMark := by
      show (v.gapDueMark && (true || _)) = _
      rw [Bool.true_or, Bool.and_true]
    refine ⟨fun he hg => ?_, fun hstay => ?_⟩
    · rw [htaken, closeTest_completes (v := marked v) rfl (Bool.eq_false_iff.2 (mt hedge.1 he))
        (.inr ⟨ht.1, hclose.trans hg⟩), setSlot_setSlot]
      rfl
    · rw [htaken, closeTest_stays (v := marked v) rfl]
      · rfl
      · exact hstay.imp hedge.2 fun hg => .inl ⟨ht.1, hclose.trans hg⟩

/-! ## Transfers -/

theorem exec_transfer (hm : s.measuring = true) (hf : headIs f s) (hk : f.kind = .transfer) (hn : f.source ≠ 0) :
    exec .transfer s = .next (s.dispatched.takeTransfer f) := by
  show execTransfer s = _
  unfold execTransfer
  have hhead : s.headOf .transfer = some f := hk ▸ headOf_of_headIs hf hn
  rw [hhead]
  exact congrArg Host.Outcome.next (if_pos hm)

/-- A TRANSFER that names this station and holds a plausible speed and a half (R105). -/
def soundTransfer (number : Nat) (t : TransferFields) : Prop :=
  t.owner = number ∧ 1000 ≤ t.speed ∧ t.speed ≤ 70000 ∧ (t.left ≠ none ∨ t.right ≠ none)

theorem takeTransfer_sound (h : soundTransfer s.control.number (transferFields f.payload)) :
    (s.ownerFor f.source (transferFields f.payload).vehicle = none → s.takeTransfer f = s.bump .lateTransfers) ∧
    ∀ k v, s.ownerFor f.source (transferFields f.payload).vehicle = some (k, v) →
      s.takeTransfer f = s.mergeTransfer k (transferFields f.payload)
        (State.eventTime f.stamp (transferFields f.payload).age) { v with received := min 255 (v.received + 1) } := by
  obtain ⟨ho, hleast, hgreatest, hhalf⟩ := h
  have hrefused : ¬ (decide ((transferFields f.payload).speed < 1000) || decide (70000 < (transferFields f.payload).speed) ||
      ((transferFields f.payload).left.isNone && (transferFields f.payload).right.isNone)) = true := by
    simp only [Bool.or_eq_true, Bool.and_eq_true, decide_eq_true_eq, Option.isNone_iff_eq_none, not_or, not_and_or, not_lt]
    exact ⟨⟨hleast, hgreatest⟩, hhalf⟩
  unfold State.takeTransfer
  refine ⟨fun hnone => ?_, fun k v hsome => ?_⟩
  · simp only [hnone]
    exact (if_neg (not_not.2 ho)).trans (if_neg hrefused)
  · simp only [hsome]
    exact (if_neg (not_not.2 ho)).trans (if_neg hrefused)

theorem takeTransfer_foreign (h : (transferFields f.payload).owner ≠ s.control.number) : s.takeTransfer f = s :=
  if_pos h

theorem takeTransfer_refused (ho : (transferFields f.payload).owner = s.control.number)
    (h : (transferFields f.payload).speed < 1000 ∨ 70000 < (transferFields f.payload).speed ∨
      (transferFields f.payload).left = none ∧ (transferFields f.payload).right = none) :
    s.takeTransfer f = s.bump .framesDiscarded := by
  have hrefused : (decide ((transferFields f.payload).speed < 1000) || decide (70000 < (transferFields f.payload).speed) ||
      ((transferFields f.payload).left.isNone && (transferFields f.payload).right.isNone)) = true := by
    simpa only [Bool.or_eq_true, Bool.and_eq_true, decide_eq_true_eq, Option.isNone_iff_eq_none, or_assoc] using h
  unfold State.takeTransfer
  exact (if_neg (not_not.2 ho)).trans (if_pos hrefused)

theorem transferLone_iff (x : TransferFields) (h : Half) (load : Nat) : State.transferLone x = some (h, load) ↔
    match h with
    | .left => x.left = some load ∧ x.right = none
    | .right => x.left = none ∧ x.right = some load := by
  unfold State.transferLone
  cases h <;> cases x.left <;> cases x.right <;> simp

theorem transferLone_isSome_iff (x : TransferFields) : (State.transferLone x).isSome = true ↔
    x.left = none ∧ x.right ≠ none ∨ x.left ≠ none ∧ x.right = none := by
  unfold State.transferLone
  cases x.left <;> cases x.right <;> simp

/-- A local single-half axle within K takes a transferred half of this side (R105, first case). -/
def takesHalf (p : Params) (time : LocalTime) (h : Half) (a : Axle) : Bool :=
  State.withinK p a.time time &&
    match a.loneHalf with
    | some (g, l) => g = h.other && !l.remote
    | none => false

theorem takesHalf_iff (p : Params) (time : LocalTime) (h : Half) (a : Axle) : takesHalf p time h a = true ↔
    (a.time - time).toInt.natAbs ≤ p.matchWindow ∧ match h with
      | .left => a.left = none ∧ ∃ r, a.right = some r ∧ r.remote = false
      | .right => a.right = none ∧ ∃ l, a.left = some l ∧ l.remote = false := by
  unfold takesHalf State.withinK sdiff Axle.loneHalf
  rw [Bool.and_eq_true, decide_eq_true_eq]
  refine and_congr_right fun _ => ?_
  cases h <;> cases a.left <;> cases a.right <;> simp [Half.other]

theorem mergeTarget_eq (p : Params) (v : Vehicle) (time : LocalTime) (h : Half) :
    State.mergeTarget p v time h = nearest (fun a => (sdiff a.time time).natAbs) (v.axles.filter (takesHalf p time h)) :=
  rfl

/-- An axle with a remote half within K covers a transferred half (R105, second case). -/
theorem covers_iff (p : Params) (time : LocalTime) (a : Axle) :
    (a.straddled && State.withinK p a.time time) = true ↔ (a.time - time).toInt.natAbs ≤ p.matchWindow ∧
      ((∃ l, a.left = some l ∧ l.remote = true) ∨ ∃ r, a.right = some r ∧ r.remote = true) := by
  unfold Axle.straddled State.withinK sdiff
  rw [Bool.and_eq_true, halves_any_iff, decide_eq_true_eq, and_comm]
  refine and_congr_right fun _ => ?_
  simp only [or_and_right, exists_or]

theorem mergeTransfer_merges {x : TransferFields} {h : Half} {load : Nat} {time : LocalTime}
    (hlone : State.transferLone x = some (h, load)) (ha : State.mergeTarget s.control.params v time h = some a) :
    s.mergeTransfer k x time v =
      ((s.setSlot k (some (v.fillAxle a h (State.transferHalf x load)))).dropEdge v.number a.tag).closeTest := by
  unfold State.mergeTransfer
  simp only [hlone, ha]
  rfl

theorem mergeTransfer_alone {x : TransferFields} {time : LocalTime}
    (h : ∀ h load, State.transferLone x = some (h, load) → State.mergeTarget s.control.params v time h = none) :
    s.mergeTransfer k x time v =
      if (State.transferLone x).isSome && v.axles.any (fun a => a.straddled && State.withinK s.control.params a.time time)
      then (s.setSlot k (some v)).bump .lateTransfers
      else if 12 ≤ v.axles.length then s.setSlot k (some { v with flags := { v.flags with truncated := true } })
      else s.setSlot k (some (State.insertTransfer s.control.params x time v)) := by
  unfold State.mergeTransfer
  cases hlone : State.transferLone x with
  | none => rfl
  | some y =>
    obtain ⟨g, load⟩ := y
    simp only [h g load hlone]
    rfl

/-- A transferred axle goes to its place, as the latest axle when its time is later than t_last (R81, R105). -/
theorem insertTransfer_eq {p : Params} {x : TransferFields} {time : LocalTime} {before after : List Axle}
    (hl : v.axles = before ++ after) (hb : ∀ b ∈ before, 0 ≤ (time - b.time).toInt)
    (ha : ∀ b ∈ after.head?, (time - b.time).toInt < 0) :
    let axle : Axle :=
      { tag := v.nextTag, index := before.length + 1, time := time, speed := x.speed
        direction := v.direction, left := x.left.map (State.transferHalf x), right := x.right.map (State.transferHalf x) }
    let latest := 0 < (time - v.lastTime).toInt
    State.insertTransfer p x time v = { v with
      axles := before ++ axle :: after, nextTag := v.nextTag + 1
      flags := { v.flags with
        straddle := true, mismatch := v.flags.mismatch || axle.mismatch
        saturated := v.flags.saturated || axle.saturated }
      lastTime := if latest then time else v.lastTime
      lastSpeed := if latest then x.speed else v.lastSpeed
      gapDue := if latest then time + BitVec.ofNat 32 ((p.maxSpacing + p.spacing) * 16384 / x.speed)
        else v.gapDue } := by
  intro axle latest
  unfold State.insertTransfer
  have hplace : v.placeOf time = before.length := placeOf_split hl hb ha
  have htake : v.axles.take before.length = before := by rw [hl, List.take_left]
  have hdrop : v.axles.drop before.length = after := by rw [hl, List.drop_left]
  simp only [hplace, Vehicle.insertAxle, htake, hdrop]
  by_cases hlater : latest
  · simp only [if_pos hlater]
    exact (if_pos hlater).trans rfl
  · simp only [if_neg hlater]
    exact (if_neg hlater).trans rfl

/-- Settles O46: the vehicle by `ownerFor`, the three cases of R105 by the laws of `mergeTransfer`. -/
theorem transferTaken : Obligations.TransferTaken := by
  intro s f hm hf hk hsource x p time half sound takes takenBy distance near single merges covers counted' after marks
  have hexec := exec_transfer hm hf hk hsource
  have htakes (v : Vehicle) : State.takesTransfers f.source x.vehicle v = true ↔ takes v := takesTransfers_iff _ _ _
  have hsingle : (State.transferLone x).isSome = true ↔ single := transferLone_isSome_iff x
  have hmerges {h : Half} {load : Nat} (hlone : State.transferLone x = some (h, load)) (a : Axle) :
      takesHalf p time h a = true ↔ merges a := by
    rw [takesHalf_iff]
    refine and_congr_right fun _ => ?_
    rw [transferLone_iff] at hlone
    cases h
    · simp [hlone.1, hlone.2]
    · simp [hlone.1, hlone.2]
  have hnone (v : Vehicle) (h : single → ∀ a ∈ v.axles, ¬ merges a) (g : Half) (load : Nat)
      (hlone : State.transferLone x = some (g, load)) : State.mergeTarget p (counted' v) time g = none := by
    have hs : single := hsingle.1 (by rw [hlone]; rfl)
    rw [mergeTarget_eq, nearest_none]
    exact List.filter_eq_nil_iff.2 fun a ha => mt (hmerges hlone a).1 (h hs a ha)
  have hcovers (v : Vehicle) : v.axles.any (fun a => a.straddled && State.withinK p a.time time) = true ↔
      ∃ a ∈ v.axles, covers a := by
    rw [List.any_eq_true]
    exact exists_congr fun a => and_congr_right fun _ => covers_iff p time a
  have htaken (k : Slot) (v : Vehicle) (hs : sound) (hv : takenBy k v) :
      exec .transfer s = .next (s.dispatched.mergeTransfer k x time (counted' v)) := by
    have howner : s.dispatched.ownerFor f.source x.vehicle = some (k, v) := by
      refine ownerFor_slot ((htakes v).2 hv.1) ?_
      cases k
      · exact hv.2
      · exact ⟨hv.2.1, fun w hw => mt (htakes w).1 (hv.2.2 w hw)⟩
    rw [hexec, (takeTransfer_sound (s := s.dispatched) hs).2 k v howner]
    rfl
  have hput (k : Slot) (v : Vehicle) : s.dispatched.setSlot k (some v) = after k v := by cases k <;> rfl
  refine ⟨fun ho => ?_, fun ho hr => ?_, fun hs hno => ?_,
    fun k v before after' hs hv hroom hno hl hb ha => ?insert,
    fun k v h load before a after' hs hv hlone hl htags hma hb ha => ?merge,
    fun k v hs hone hv hno hcovered => ?cover, fun k v hs hv hfull hno => ?full⟩
  · rw [hexec, takeTransfer_foreign (s := s.dispatched) ho]
    rfl
  · rw [hexec, takeTransfer_refused (s := s.dispatched) ho hr]
    rfl
  · rw [hexec, (takeTransfer_sound (s := s.dispatched) hs).1 (ownerFor_none fun v hv => mt (htakes v).1 (hno v hv))]
    rfl
  case insert =>
    intro axle latest
    rw [htaken k v hs hv, mergeTransfer_alone (s := s.dispatched) (hnone v fun hs => (hno hs).1), if_neg, if_neg]
    · rw [show State.insertTransfer s.dispatched.control.params x time (counted' v) = _ from
        insertTransfer_eq (v := counted' v) hl hb ha, hput]
      rfl
    · exact not_le.2 hroom
    · rw [Bool.and_eq_true]
      rintro ⟨hs, hc⟩
      obtain ⟨a, ha, hca⟩ := (hcovers v).1 hc
      exact (hno (hsingle.1 hs)).2 a ha hca
  case merge =>
    intro filled merged
    have hx : State.transferLone x = some (h, load) := by
      rw [transferLone_iff]
      cases h <;> exact hlone
    have htarget : State.mergeTarget p (counted' v) time h = some a := by
      rw [mergeTarget_eq, show (counted' v).axles = before ++ a :: after' from hl]
      exact nearest_filter_split ((hmerges hx a).2 hma) (fun b hm hq => hb b hm ((hmerges hx b).1 hq))
        fun b hm hq => ha b hm ((hmerges hx b).1 hq)
    have hfill : a.fill h (State.transferHalf x load) = filled := by
      show _ = match h with
        | .left => { a with left := some (half load) }
        | .right => { a with right := some (half load) }
      cases h <;> rfl
    have hmerged : exec .transfer s = .next merged.closeTest := by
      rw [htaken k v hs hv, mergeTransfer_merges (s := s.dispatched) hx htarget,
        fillAxle_split (v := counted' v) hl htags, hfill, hput]
      rfl
    refine ⟨hmerged, fun hc => hmerged.trans (congrArg Host.Outcome.next (closeTest_empty ?_))⟩
    cases k
    · exact hc
    · exact absurd (hc.symm.trans hv.2.1) (Option.some_ne_none _).symm
  case cover =>
    rw [htaken k v hs hv, mergeTransfer_alone (s := s.dispatched) (hnone v fun _ => hno), if_pos, hput]
    · rfl
    · rw [Bool.and_eq_true]
      exact ⟨hsingle.2 hone, (hcovers v).2 hcovered⟩
  case full =>
    rw [htaken k v hs hv, mergeTransfer_alone (s := s.dispatched) (hnone v fun hs => (hno hs).1), if_neg, if_pos, hput]
    · exact hfull.ge
    · rw [Bool.and_eq_true]
      rintro ⟨hs, hc⟩
      obtain ⟨a, ha, hca⟩ := (hcovers v).1 hc
      exact (hno (hsingle.1 hs)).2 a ha hca

/-! ## A partner that restarts -/

/-- A vehicle loses station `j` as its partner (R111). -/
def losesTo (j : Nat) (v : Vehicle) : Bool := decide (v.pairing ≠ .unpaired ∧ v.peer = j ∧ v.flags.partnerLost = false)

/-- An edge entry of a vehicle that loses its partner (R111). -/
def resolvesFor (j : Nat) (o : Option Vehicle) (e : EdgeEntry) : Bool :=
  o.any fun v => losesTo j v && e.vehicle == v.number

/-- What a vehicle that loses its partner becomes, beside an edge list (R100, R111). -/
def lostBeside (l : List EdgeEntry) (v : Vehicle) : Vehicle :=
  { State.losePartner v with flags := { v.flags with
      partnerLost := true, edgeUnmatched := v.flags.edgeUnmatched || l.any (fun e => e.vehicle == v.number) } }

/-- So many edge axles counted as unmatched (R100). -/
def unmatchedBy (n : Nat) (x : Vector Nat 16) : Vector Nat 16 := if n = 0 then x else x.set 6 (min 65535 (x[6] + n))

theorem unmatchedBy_unmatchedBy (m n : Nat) (x : Vector Nat 16) :
    unmatchedBy n (unmatchedBy m x) = unmatchedBy (m + n) x := by
  unfold unmatchedBy
  rcases Nat.eq_zero_or_pos m with rfl | hm
  · simp
  · rcases Nat.eq_zero_or_pos n with rfl | hn
    · simp [Nat.ne_of_gt hm]
    · rw [if_neg (Nat.ne_of_gt hm), if_neg (Nat.ne_of_gt hn), if_neg (by omega), Vector.set_set, Vector.getElem_set_self]
      congr 1
      omega

theorem setSlot_none_same (h : s.vehicleIn k = none) : s.setSlot k none = s := by
  cases k
  · show ({ s with assembler := { s.assembler with openVehicle := none } } : State) = s
    rw [← show s.assembler.openVehicle = none from h]
  · show ({ s with assembler := { s.assembler with closingVehicle := none } } : State) = s
    rw [← show s.assembler.closingVehicle = none from h]

theorem not_isEmpty_filter (n : Nat) (s : State) :
    (!(s.edgesOf n).isEmpty) = s.boundary.edges.any fun e => e.vehicle == n := by
  rw [Bool.eq_iff_iff]
  simp [State.edgesOf, List.filter_eq_nil_iff]

theorem losePartner_flags (v : Vehicle) : (State.losePartner v).flags = { v.flags with partnerLost := true } := by
  unfold State.losePartner
  split <;> rfl

theorem lostBeside_number (l : List EdgeEntry) (v : Vehicle) : (lostBeside l v).number = v.number := by
  unfold lostBeside State.losePartner
  split <;> rfl

theorem lostBeside_pairing (l : List EdgeEntry) (v : Vehicle) :
    (lostBeside l v).pairing = if v.pairing = .yielded then .unpaired else v.pairing := by
  unfold lostBeside State.losePartner
  split <;> rfl

/-- With PARTNER-LOST the owner close waits for the gap due mark alone (R108). -/
theorem lostBeside_close (l : List EdgeEntry) (v : Vehicle) : (lostBeside l v).ownerCloseMet = v.gapDueMark := by
  have hgap : (lostBeside l v).gapDueMark = v.gapDueMark := by
    unfold lostBeside State.losePartner
    split <;> rfl
  show ((lostBeside l v).gapDueMark && (_ || true)) = _
  rw [hgap, Bool.or_true, Bool.and_true]

/-- The vehicle of a slot loses its partner, where it is the station that restarts, and its entries resolve (R111). -/
theorem partnerRestart_eq (j : Nat) (hk : ∀ v, s.vehicleIn k = some v → StandsIn k v s) :
    s.partnerRestart k j = ({ s with
      boundary := { s.boundary with edges := s.boundary.edges.filter fun e => !resolvesFor j (s.vehicleIn k) e }
      counters := unmatchedBy (s.boundary.edges.filter (resolvesFor j (s.vehicleIn k))).length s.counters } :
        State).setSlot k ((s.vehicleIn k).map fun v => if losesTo j v then lostBeside s.boundary.edges v else v) := by
  unfold State.partnerRestart
  cases hv : s.vehicleIn k with
  | none =>
    have hfalse : resolvesFor j none = fun _ => false := rfl
    simp only [hfalse, Bool.not_false, List.filter_true, List.filter_false, List.length_nil, Option.map_none]
    exact (setSlot_none_same hv).symm
  | some v =>
    by_cases hl : losesTo j v = true
    · have hstands := hk v hv
      have hres : resolvesFor j (some v) = fun e => e.vehicle == v.number := by
        funext e
        exact (congrArg (· && e.vehicle == v.number) hl).trans (Bool.true_and _)
      have hput := resolveOwn_put (w := State.losePartner v) hstands (by unfold State.losePartner; split <;> rfl) (by
        unfold State.losePartner
        split
        · exact Pairing.noConfusion
        · assumption)
      rw [hres, Option.map_some, if_pos hl]
      refine (if_pos (of_decide_eq_true hl)).trans (hput.trans ?_)
      rw [not_isEmpty_filter, losePartner_flags]
      unfold ownCounted unmatchedBy
      simp only [List.length_eq_zero_iff]
      cases k <;> rfl
    · have hres : resolvesFor j (some v) = fun _ => false := by
        funext e
        exact (congrArg (· && e.vehicle == v.number) (Bool.eq_false_iff.2 hl)).trans (Bool.false_and _)
      rw [hres, Option.map_some, if_neg hl]
      simp only [Bool.not_false, List.filter_true, List.filter_false, List.length_nil]
      exact (if_neg fun h => hl (decide_eq_true h)).trans (setSlot_same (hk v hv)).symm

theorem length_filter_or {α : Type} (p q : α → Bool) (l : List α) :
    (l.filter q).length + ((l.filter fun x => !q x).filter p).length = (l.filter fun x => p x || q x).length := by
  induction l with
  | nil => rfl
  | cons x l ih =>
    cases hq : q x <;> cases hp : p x <;> simp [hq, hp] <;> simp at ih <;> omega

/-- The entries of one vehicle stand in the list whichever of another's have left it. -/
theorem any_filter_resolves (j : Nat) (l : List EdgeEntry) (o : Option Vehicle)
    (hv : ∀ w, o = some w → v.number ≠ w.number) :
    (l.filter fun e => !resolvesFor j o e).any (fun e => e.vehicle == v.number) = l.any fun e => e.vehicle == v.number := by
  rw [List.any_filter]
  congr 1
  funext e
  cases o with
  | none => rfl
  | some w =>
    have hne := hv w rfl
    by_cases he : e.vehicle = v.number
    · simp [resolvesFor, he, hne]
    · simp [he]

/-- An ANNOUNCE: what becomes of the two vehicles, the edge list and the remote lists, and the close after it (R111). -/
theorem takeAnnounce_eq (j : Nat)
    (hdistinct : ∀ v w, s.assembler.openVehicle = some v → s.assembler.closingVehicle = some w → v.number ≠ w.number) :
    let resolves := fun e =>
      resolvesFor j s.assembler.openVehicle e || resolvesFor j s.assembler.closingVehicle e
    let after := fun (v : Vehicle) => if losesTo j v then lostBeside s.boundary.edges v else v
    let others := fun (l : List RemoteNotice) => l.filter fun n => n.source != j
    s.takeAnnounce j = ({ s with
      boundary := { edges := s.boundary.edges.filter fun e => !resolves e
                    remote := { left := others s.boundary.remote.left, right := others s.boundary.remote.right } }
      counters := unmatchedBy (s.boundary.edges.filter resolves).length s.counters
      assembler := { s.assembler with
        openVehicle := s.assembler.openVehicle.map after
        closingVehicle := s.assembler.closingVehicle.map after } } : State).closeTest := by
  intro resolves after others
  have hclosing := partnerRestart_eq (s := s) (k := .closingSlot) j fun w hw =>
    .of_slot ⟨hw, fun v hv => hdistinct v w hv hw⟩
  have hopen := partnerRestart_eq (s := s.partnerRestart .closingSlot j) (k := .openSlot) j fun v hv => .of_slot hv
  rw [hclosing] at hopen
  have hlost : s.assembler.openVehicle.map (fun v => if losesTo j v then lostBeside
      (s.boundary.edges.filter fun e => !resolvesFor j s.assembler.closingVehicle e) v else v) =
      s.assembler.openVehicle.map after := by
    refine Option.map_congr fun v hv => ?_
    show _ = if losesTo j v then lostBeside s.boundary.edges v else v
    unfold lostBeside
    rw [any_filter_resolves j _ _ fun w hw => hdistinct v w hv hw]
  have hedges : (s.boundary.edges.filter fun e => !resolvesFor j s.assembler.closingVehicle e).filter
      (fun e => !resolvesFor j s.assembler.openVehicle e) = s.boundary.edges.filter fun e => !resolves e := by
    rw [List.filter_filter]
    exact List.filter_congr fun e _ => (Bool.not_or _ _).symm
  have hcount := length_filter_or (resolvesFor j s.assembler.openVehicle) (resolvesFor j s.assembler.closingVehicle)
    s.boundary.edges
  unfold State.takeAnnounce
  rw [hclosing, hopen]
  refine congrArg State.closeTest ?_
  rw [← hlost, ← hedges, show (s.boundary.edges.filter resolves).length = _ from hcount.symm, ← unmatchedBy_unmatchedBy]
  rfl

theorem exec_announce (hm : s.measuring = true) (hf : headIs f s) (hk : f.kind = .announce) (hn : f.source ≠ 0) :
    exec .announce s = .next (s.dispatched.takeAnnounce f.source) := by
  show execAnnounce s = _
  unfold execAnnounce
  have hhead : s.headOf .announce = some f := hk ▸ headOf_of_headIs hf hn
  rw [hhead]
  exact congrArg Host.Outcome.next (if_pos hm)

/-- Settles O48: both vehicles by `partnerRestart_eq`, the close by the laws of `closeTest`. -/
theorem partnerRestartTaken : Obligations.PartnerRestartTaken := by
  intro s f hm hf hk hsource hdistinct others loses mine resolves lost n after open' closing
  have hloses (v : Vehicle) : losesTo f.source v = loses v := rfl
  have hlost (v : Vehicle) : lostBeside s.boundary.edges v = lost v := by
    unfold lostBeside State.losePartner
    by_cases hp : v.pairing = .yielded
    · rw [if_pos hp]
      exact (if_pos hp).symm
    · rw [if_neg hp]
      exact (if_neg hp).symm
  have hafter (o : Option Vehicle) :
      o.map (fun v => if losesTo f.source v then lostBeside s.dispatched.boundary.edges v else v) =
      o.map fun v => if loses v then lost v else v :=
    Option.map_congr fun v _ => by rw [show lostBeside s.dispatched.boundary.edges v = lost v from hlost v, hloses]
  have hexec : exec .announce s = .next (after open' closing).closeTest := by
    rw [exec_announce hm hf hk hsource, takeAnnounce_eq (s := s.dispatched) f.source hdistinct]
    rw [hafter, hafter]
    rfl
  refine ⟨hexec, fun hc => ?_, fun w hw hl => ?_⟩
  · have hnone : closing = none := by
      show Option.map _ s.assembler.closingVehicle = none
      rw [hc]
      rfl
    rw [hexec, hnone, closeTest_empty rfl]
  · have hsome : closing = some (lost w) := by
      show Option.map (fun v => if loses v = true then lost v else v) s.assembler.closingVehicle = _
      rw [hw, Option.map_some, if_pos hl]
    have hnumber : (lost w).number = w.number := by rw [← hlost, lostBeside_number]
    have hpairing : (lost w).pairing = if w.pairing = .yielded then .unpaired else w.pairing := by
      rw [← hlost, lostBeside_pairing]
    have hgap : (lost w).ownerCloseMet = w.gapDueMark := by rw [← hlost, lostBeside_close]
    have hclean : (after open' (some (lost w))).hasEdge (lost w).number = false := by
      rw [Bool.eq_false_iff, ne_eq, hasEdge_iff, hnumber]
      rintro ⟨e, he, hn⟩
      have hresolves : resolves e = true := by
        show (_ || Option.any _ _) = true
        rw [hw, Option.any_some, hl, show mine w e = true from beq_iff_eq.2 hn, Bool.true_and, Bool.or_true]
      simpa [hresolves] using (List.mem_filter.1 he).2
    refine ⟨fun hp => ?_, fun hp hg => ?_⟩
    · rw [hexec, hsome, closeTest_completes (v := lost w) rfl hclean, show (after open' (some (lost w))).setSlot
        .closingSlot none = after open' none from rfl]
      rw [hpairing, hgap]
      obtain ⟨hpaired, -, -⟩ := of_decide_eq_true hl
      cases hw' : w.pairing with
      | unpaired => exact absurd hw' hpaired
      | yielded => exact .inl rfl
      | owner => exact .inr ⟨rfl, hp.resolve_left fun h => Pairing.noConfusion (hw'.symm.trans h)⟩
    · rw [hexec, hsome, closeTest_stays (v := lost w) rfl]
      refine .inr (.inl ⟨?_, hgap.trans hg⟩)
      rw [hpairing, hp]
      rfl

end Sys2Proof.Machine.Laws
end

section
/-!
# Outputs, triggers, and the correction store (chapters 08, 09)

What each command of the camera line and of the store does when it is due, by cases; `isReference_iff`,
`updatedCorrection_eq` and the laws of `requestSave` say what a reference sample leaves behind.
-/
namespace Sys2Proof.Machine.Laws
open Sys2Proof.Machine.Safety

variable {s t : State} {v : Vehicle}

/-! ## The output lines -/

theorem isOver_iff (verdict : Verdict) :
    verdict.isOver = true ↔ verdict = .axleOver ∨ verdict = .grossOver ∨ verdict = .bothOver := by
  cases verdict <;> simp [Verdict.isOver]

theorem headDue_cons {fire : LocalTime} {rest : List LocalTime} (h : s.output.triggers = fire :: rest) :
    s.headDue = true ↔ 0 ≤ (s.localTime - fire).toInt := by
  rw [headDue_iff, h]
  simp

theorem faultLine_iff (s : State) : s.faultLine = true ↔ (∃ o, s.control.station = .mute o) ∨
    s.control.station = .halted ∨ s.link.monitor = .lineFault ∨ s.drift.store = .fault := by
  unfold State.faultLine
  cases s.control.station <;> simp

/-- The gap's end starts the pulse of a due head (R151). -/
theorem exec_gapEnd {stop : LocalTime} (hc : s.output.camera = .gap) (he : s.output.cameraEnd = some stop)
    (hp : 0 ≤ (s.localTime - stop).toInt) : exec .gapEnd s = .next s.endGap := by
  refine congrArg Host.Outcome.next (if_pos ?_)
  unfold State.gapEndIsDue
  rw [hc, he]
  exact (reached_iff _ _).2 hp

/-- Settles O49: each line by its state. -/
theorem outputLinesRun : Obligations.OutputLinesRun := by
  intro s p pulse passed
  refine ⟨fun fire rest hc ht => ?trigger, fun stop hc he => ?pulseEnd, fun stop hc he hp => ⟨fun ht => ?_,
    fun fire rest ht => ?_⟩, fun hc he => ?noEnd, decide_eq_true_iff, fun verdict => ?verdict, Iff.rfl, faultLine_iff s⟩
  case trigger =>
    have hdue : s.triggerIsDue = true ↔ passed fire := by
      unfold State.triggerIsDue
      rw [hc, Bool.and_eq_true, headDue_cons ht]
      simp only [decide_true, true_and]
      rfl
    refine congrArg Host.Outcome.next ?_
    by_cases h : passed fire
    · rw [if_pos (hdue.2 h), if_pos h]
      unfold State.startPulse
      rw [ht]
      rfl
    · rw [if_neg (mt hdue.1 h), if_neg h]
  case pulseEnd =>
    have hdue : s.pulseEndIsDue = true ↔ passed stop := by
      unfold State.pulseEndIsDue
      rw [hc, he, Bool.and_eq_true]
      simp only [decide_true, true_and]
      exact reached_iff _ _
    refine congrArg Host.Outcome.next ?_
    by_cases h : passed stop
    · rw [if_pos (hdue.2 h), if_pos h]
      unfold State.endPulse
      rw [he]
      rfl
    · rw [if_neg (mt hdue.1 h), if_neg h]
  · rw [exec_gapEnd hc he hp]
    refine congrArg Host.Outcome.next (if_neg ?_)
    unfold State.headDue
    rw [ht]
    exact Bool.false_ne_true
  · rw [exec_gapEnd hc he hp]
    refine congrArg Host.Outcome.next ?_
    unfold State.endGap
    by_cases h : passed fire
    · rw [if_pos ((headDue_cons ht).2 h), if_pos h]
      unfold State.startPulse
      rw [ht]
      rfl
    · rw [if_neg (mt (headDue_cons ht).1 h), if_neg h]
  case noEnd =>
    refine congrArg Host.Outcome.next (if_neg ?_)
    unfold State.gapEndIsDue
    rw [he]
    simp [dueReached]
  case verdict =>
    intro line isOver
    have hover : verdict.isOver = true ↔ isOver := isOver_iff verdict
    have hline {b : Bool} (h : State.overloadAfter p.overloadMode verdict s.output.overload = b) :
        s.takeVerdict verdict = line b := by
      unfold State.takeVerdict
      rw [h]
    have hsame : line s.output.overload = s := rfl
    refine ⟨fun hm => hline (by rw [hm]; rfl), fun hm => ⟨fun h => hline ?_, fun h => hline ?_, fun h => ?_⟩,
      fun hm => ⟨fun h => hline ?_, fun h => ?_⟩⟩
    · rw [hm]
      exact if_pos (hover.2 h)
    · rw [hm, h]
      rfl
    · rw [← hsame]
      exact hline (by rw [hm, h]; rfl)
    · rw [hm]
      show (_ || verdict.isOver) = true
      rw [hover.2 h, Bool.or_true]
    · refine (hline ?_).trans hsame
      rw [hm]
      show (_ || verdict.isOver) = _
      rw [Bool.eq_false_iff.2 (mt hover.1 h), Bool.or_false]

/-! ## Triggers -/

theorem triggerInsert_split {time : LocalTime} {before after : List LocalTime}
    (hb : ∀ u ∈ before, 0 ≤ (time - u).toInt) (ha : ∀ u ∈ after.head?, (time - u).toInt < 0) :
    triggerInsert time (before ++ after) = before ++ time :: after := by
  have hpast : ∀ u ∈ before, reached time u = true := fun u hu => (reached_iff _ _).2 (hb u hu)
  have hlater : ∀ u ∈ after.head?, ¬ reached time u = true := fun u hu => by
    rw [reached_iff, not_le]
    exact ha u hu
  unfold triggerInsert
  rw [List.takeWhile_append_of_pos hpast, List.dropWhile_append_of_pos hpast]
  cases after with
  | nil => simp
  | cons u after =>
    rw [List.takeWhile_cons_of_neg (hlater u rfl), List.dropWhile_cons_of_neg (hlater u rfl), List.append_nil]

/-- Settles O50: room, then the place by `triggerInsert_split`. -/
theorem triggerScheduled : Obligations.TriggerScheduled := by
  intro v flags verdict s p isOver fire late time
  have hover : verdict.isOver = true ↔ isOver := isOver_iff verdict
  have hcalls : (verdict.isOver && s.control.params.camera != 0) = true ↔ isOver ∧ p.camera ≠ 0 := by
    rw [Bool.and_eq_true, hover, bne_iff_ne]
  refine ⟨fun h => if_neg ?_, fun ho hc hfull => ?_, fun before after ho hc hl hroom hb ha => ?_⟩
  · rw [hcalls]
    tauto
  · exact (if_pos (hcalls.2 ⟨ho, hc⟩)).trans (if_pos hfull.ge)
  · refine (if_pos (hcalls.2 ⟨ho, hc⟩)).trans ((if_neg (not_le.2 hroom)).trans ?_)
    have htime : (if (decide (sdiff (fireTime s.control.params v) s.localTime ≤ 0)) = true then s.localTime
        else fireTime s.control.params v) = time := by
      show _ = if late then s.localTime else fire
      simp only [decide_eq_true_eq]
      rfl
    simp only [htime, hl, triggerInsert_split hb ha]
    rfl

/-! ## Reference samples -/

theorem isReferenceAxle_iff (p : Params) (a : Axle) : isReferenceAxle p a = true ↔
    a.left ≠ none ∧ a.right ≠ none ∧ p.nominal ≤ 2 * a.load ∧ a.load ≤ 2 * p.nominal := by
  simp [isReferenceAxle, Option.isSome_iff_ne_none, and_assoc]

/-- The first axle of a reference sample has both halves and a plausible load (R131). -/
theorem isReference_first (p : Params) (axles : List Axle) (f : Flags) (cls : Nat) (sm : Summary) :
    isReference p axles f cls sm = (p.tracking && cls == p.refClass && !f.barsReference &&
      (p.refSpeed.1 ≤ sm.meanSpeed && sm.meanSpeed ≤ p.refSpeed.2) &&
      (p.refGross.1 ≤ sm.gross && sm.gross ≤ p.refGross.2) && axles.head?.any (isReferenceAxle p)) := by
  cases axles <;> rfl

/-- The conditions of a reference sample, one by one (R131). -/
theorem isReference_iff (p : Params) (axles : List Axle) (f : Flags) (cls : Nat) (sm : Summary) :
    isReference p axles f cls sm = true ↔ p.tracking = true ∧ cls = p.refClass ∧
      f.incomplete = false ∧ f.mismatch = false ∧ f.saturated = false ∧ f.truncated = false ∧
      f.continuation = false ∧ f.wrongWay = false ∧ f.tempDefault = false ∧ f.partnerLost = false ∧
      f.edgeUnmatched = false ∧ f.straddle = false ∧ f.unsteady = false ∧ f.tempHeld = false ∧
      p.refSpeed.1 ≤ sm.meanSpeed ∧ sm.meanSpeed ≤ p.refSpeed.2 ∧
      p.refGross.1 ≤ sm.gross ∧ sm.gross ≤ p.refGross.2 ∧
      ∃ a rest, axles = a :: rest ∧ a.left ≠ none ∧ a.right ≠ none ∧ p.nominal ≤ 2 * a.load ∧
        a.load ≤ 2 * p.nominal := by
  have hfirst : axles.head?.any (isReferenceAxle p) = true ↔ ∃ a rest, axles = a :: rest ∧ a.left ≠ none ∧
      a.right ≠ none ∧ p.nominal ≤ 2 * a.load ∧ a.load ≤ 2 * p.nominal := by
    cases axles with
    | nil => simp
    | cons a rest => simp [isReferenceAxle_iff]
  rw [isReference_first, Bool.and_eq_true, hfirst]
  simp only [Flags.barsReference, Flags.barsScreening, Bool.and_eq_true, Bool.not_eq_true', Bool.or_eq_false_iff,
    beq_iff_eq, decide_eq_true_eq, and_assoc]

/-- The step of an update, held to within Δ of the old correction and then to its range (R133). -/
theorem updatedCorrection_eq (p : Params) (old sum : Nat) : updatedCorrection p old sum =
    max 3686 (min 4506 (max (old - p.maxStep) (min (old + p.maxStep)
      ((2 * 4096 * p.nominal * p.samples + sum) / (2 * sum))))) := by
  unfold updatedCorrection targetCorrection
  rw [clampNat_eq (by decide), clampNat_eq (by omega)]

theorem toSave_eq (d : Drift) : d.toSave =
    { corrections := d.bands.toList.map Band.correction, updates := d.bands.toList.map Band.updates
      saveCount := min 65535 (d.saveCount + 1) } := by
  unfold Drift.toSave
  rw [Vector.toList_map, Vector.toList_map]

theorem nextSampleInstant_eq (now : LocalTime) :
    nextSampleInstant now = if now.toNat % 2 = 0 then now else now + 1 := by
  unfold nextSampleInstant
  simp only [sampleInstant_iff]
  rfl

theorem requestSave_fault {d : Drift} {now : LocalTime} (h : d.store = .fault) : d.requestSave now = d := by
  unfold Drift.requestSave
  simp only [h]

theorem requestSave_busy {d : Drift} {now : LocalTime}
    (h : d.store = .erasing ∨ d.store = .programming ∨ d.store = .verifying) :
    d.requestSave now = { d with again := true } := by
  unfold Drift.requestSave
  rcases h with h | h | h <;> simp only [h]

theorem requestSave_idle {d : Drift} (h : d.store = .idle) (now : LocalTime) : d.requestSave now = d.beginSave now := by
  unfold Drift.requestSave
  simp only [h]

/-- Settles O51: the conditions by `isReference_iff`, the update by `updatedCorrection_eq`, the save by the store's state. -/
theorem referenceSampleUpdatesBand : Obligations.ReferenceSampleUpdatesBand := by
  intro v f cls sm s p reference t
  have href : isReference p v.axles f cls sm = true ↔ reference := isReference_iff _ _ _ _ _
  refine ⟨fun h => if_neg (mt href.1 h), fun a rest h hl => ?_⟩
  intro b old sum target stepped new bands sent
  have hw : normalisedLoad ((v.axles.head?.map Axle.load).getD 0) v.correction = a.load * 4096 / v.correction := by
    rw [hl]
    rfl
  have hstage : t = { s with drift :=
      if (old.sampled p (a.load * 4096 / v.correction)).2 then
        { s.drift with bands := s.drift.bands.set b (old.sampled p (a.load * 4096 / v.correction)).1 }.requestSave s.localTime
      else { s.drift with bands := s.drift.bands.set b (old.sampled p (a.load * 4096 / v.correction)).1 } } := by
    refine (if_pos (href.2 h)).trans ?_
    rw [hw]
    rfl
  refine ⟨fun hless => ?_, fun hlast => ?_⟩
  · rw [hstage, show old.sampled p (a.load * 4096 / v.correction) =
      ({ old with count := old.count + 1, sum := sum }, false) from if_neg (not_le.2 hless)]
    rfl
  · have hnew : old.sampled p (a.load * 4096 / v.correction) = (new, true) := by
      refine (if_pos hlast.ge).trans ?_
      rw [updatedCorrection_eq]
    have hupdated : t = { s with drift := { s.drift with bands := bands }.requestSave s.localTime } := by
      rw [hstage, hnew, if_pos (show (new, true).2 = true from rfl)]
    have hsaves {d : Drift} (hd : { s.drift with bands := bands }.requestSave s.localTime = d) :
        t = { s with drift := d } := by
      rw [hupdated, hd]
    refine ⟨fun hs => hsaves (requestSave_fault hs), fun hs => hsaves (requestSave_busy hs),
      fun hs => hsaves ((requestSave_idle (d := { s.drift with bands := bands }) hs _).trans ?_)⟩
    unfold Drift.beginSave
    rw [toSave_eq, nextSampleInstant_eq]
    rfl

/-! ## The store -/

theorem readEnds_iff (s : State) :
    s.readEnds = true ↔ s.localTime.toNat % 2 = 0 ∧ s.localTime = s.drift.phaseAt + 2 := by
  unfold State.readEnds
  rw [Bool.and_eq_true, sampleInstant_iff, beq_iff_eq]
  rfl

theorem nextSampleInstant_even {now : LocalTime} (h : now.toNat % 2 = 0) : nextSampleInstant now = now :=
  (nextSampleInstant_eq now).trans (if_pos h)

theorem beginProgram_even {d : Drift} {snap : Correction} {now : LocalTime} (hs : d.snapshot = some snap)
    (he : now.toNat % 2 = 0) : d.beginProgram now = { d with
      store := .programming, phaseDue := some (now + 819), phaseAt := now
      port := [.writeEnable, .pageProgram 4096 snap.bytes, .readStatus] } := by
  unfold Drift.beginProgram
  simp only [hs, nextSampleInstant_even he]
  rfl

theorem exec_verify {readBack : List Byte} (hs : s.drift.store = .verifying) (he : s.localTime.toNat % 2 = 0)
    (hends : s.localTime = s.drift.phaseAt + 2) :
    exec (.verify readBack) s = .next { s with drift := s.drift.verified s.localTime readBack } := by
  refine congrArg Host.Outcome.next (if_pos ?_)
  rw [hs, (readEnds_iff s).2 ⟨he, hends⟩]
  rfl

/-- Settles O52: each command where its phase stands, by `answered_iff`, `phaseOver_iff` and `readEnds_iff`. -/
theorem saveRuns : Obligations.SaveRuns := by
  intro s snap readBack hsnap even after ends failed
  have hanswered : s.answered = true ↔ even ∧ after := answered_iff s
  refine ⟨fun he ha hs => ?_, fun he ha hs => ?_, fun hno => ⟨?_, ?_⟩, fun due he hdue hd => ⟨fun hs => ?_, fun hs => ?_⟩,
    fun he hn hs hr hg => ?_, fun he hn hs hr hg => ?_, fun he hn hs hr => ?_, fun hno => ?_⟩
  · refine congrArg Host.Outcome.next ((if_pos ?_).trans ?_)
    · rw [hs, hanswered.2 ⟨he, ha⟩]
      rfl
    · rw [beginProgram_even hsnap he]
  · refine congrArg Host.Outcome.next ((if_pos ?_).trans ?_)
    · rw [hs, hanswered.2 ⟨he, ha⟩]
      rfl
    · unfold Drift.beginVerify
      rw [nextSampleInstant_even he]
      rfl
  · refine congrArg Host.Outcome.next (if_neg ?_)
    rw [Bool.and_eq_true, hanswered]
    exact fun h => hno h.2
  · refine congrArg Host.Outcome.next (if_neg ?_)
    rw [Bool.and_eq_true, hanswered]
    exact fun h => hno h.2
  · exact congrArg Host.Outcome.next (if_pos ((phaseOver_iff s _).2 ⟨hs, he, due, hdue, hd⟩))
  · exact congrArg Host.Outcome.next (if_pos ((phaseOver_iff s _).2 ⟨hs, he, due, hdue, hd⟩))
  · rw [exec_verify hs he hn]
    unfold Drift.verified
    simp only [hsnap]
    rw [if_pos hr, if_neg (by rw [hg]; exact Bool.false_ne_true)]
  · rw [exec_verify hs he hn]
    unfold Drift.verified
    simp only [hsnap]
    rw [if_pos hr, if_pos hg]
    unfold Drift.beginSave
    rw [toSave_eq, nextSampleInstant_even he]
    rfl
  · rw [exec_verify hs he hn]
    unfold Drift.verified
    simp only [hsnap]
    rw [if_neg hr]
    rfl
  · refine congrArg Host.Outcome.next (if_neg ?_)
    rw [Bool.and_eq_true, readEnds_iff]
    exact fun h => hno h.2

end Sys2Proof.Machine.Laws
end

section
/-!
# What is written reads back (chapters 08, 11)

`byteAt_left`, `byteAt_right` and `byteAt_flatMap` find a byte in a payload; `u16_bytes` and `u24_bytes` put a field together again.
-/
namespace Sys2Proof.Machine.Laws
open Sys2Proof.Machine.Safety

/-! ## Bytes of a list -/

theorem byteAt_left {l : List Byte} {i : Nat} (h : i < l.length) (m : List Byte) : byteAt (l ++ m) i = byteAt l i := by
  unfold byteAt
  rw [List.getD_append _ _ _ _ h]

theorem byteAt_right (l m : List Byte) (i : Nat) : byteAt (l ++ m) (l.length + i) = byteAt m i := by
  unfold byteAt
  rw [List.getD_append_right _ _ _ _ (Nat.le_add_right _ _), Nat.add_sub_cancel_left]

theorem length_flatMap_of {α : Type} {f : α → List Byte} {k : Nat} (hk : ∀ x, (f x).length = k) (l : List α) :
    (l.flatMap f).length = k * l.length := by
  induction l with
  | nil => rfl
  | cons x l ih => rw [List.flatMap_cons, List.length_append, hk, ih, List.length_cons, Nat.mul_succ, Nat.add_comm]

/-- In a list of entries of one length an entry stands at a multiple of it. -/
theorem byteAt_flatMap {α : Type} {f : α → List Byte} {k : Nat} (hk : ∀ x, (f x).length = k) {l : List α} {i : Nat} {x : α}
    (h : l[i]? = some x) {j : Nat} (hj : j < k) (m : List Byte) :
    byteAt (l.flatMap f ++ m) (k * i + j) = byteAt (f x) j := by
  induction l generalizing i with
  | nil => cases h
  | cons y l ih =>
    rw [List.flatMap_cons, List.append_assoc]
    cases i with
    | zero =>
      obtain rfl : y = x := by simpa using h
      rw [Nat.mul_zero, Nat.zero_add, byteAt_left (by rw [hk]; exact hj)]
    | succ i =>
      rw [show k * (i + 1) + j = (f y).length + (k * i + j) by rw [hk]; ring, byteAt_right]
      exact ih (by simpa using h)

/-! ## Fields -/

theorem be16_eq (n : Nat) : be16 n = [BitVec.ofNat 8 (n / 256), BitVec.ofNat 8 n] := rfl

theorem be24_eq (n : Nat) :
    be24 n = [BitVec.ofNat 8 (n / 65536), BitVec.ofNat 8 (n / 256), BitVec.ofNat 8 n] := rfl

theorem be32_eq (n : Nat) : be32 n = [BitVec.ofNat 8 (n / 65536 / 256), BitVec.ofNat 8 (n / 65536),
    BitVec.ofNat 8 (n / 256), BitVec.ofNat 8 n] := rfl

theorem length_be16 (n : Nat) : (be16 n).length = 2 := rfl

/-- A field of two bytes reads back. -/
theorem u16_bytes {n : Nat} (h : n < 65536) :
    256 * (BitVec.ofNat 8 (n / 256)).toNat + (BitVec.ofNat 8 n).toNat = n := by
  rw [BitVec.toNat_ofNat, BitVec.toNat_ofNat]
  omega

/-- A field of three bytes reads back. -/
theorem u24_bytes {n : Nat} (h : n < 2 ^ 24) :
    256 * (256 * (BitVec.ofNat 8 (n / 65536)).toNat + (BitVec.ofNat 8 (n / 256)).toNat) +
      (BitVec.ofNat 8 n).toNat = n := by
  rw [BitVec.toNat_ofNat, BitVec.toNat_ofNat, BitVec.toNat_ofNat]
  omega

theorem u8_byte {n : Nat} (h : n < 256) : (BitVec.ofNat 8 n).toNat = n := by
  rw [BitVec.toNat_ofNat]
  omega

/-- A field of four bytes reads back. -/
theorem u32_bytes (t : LocalTime) : 65536 * (256 * (BitVec.ofNat 8 (t.toNat / 65536 / 256)).toNat +
    (BitVec.ofNat 8 (t.toNat / 65536)).toNat) +
      (256 * (BitVec.ofNat 8 (t.toNat / 256)).toNat + (BitVec.ofNat 8 t.toNat).toNat) = t.toNat := by
  have := t.isLt
  rw [BitVec.toNat_ofNat, BitVec.toNat_ofNat, BitVec.toNat_ofNat, BitVec.toNat_ofNat]
  omega

theorem u16At_be16 {n : Nat} (h : n < 65536) (l : List Byte) : u16At (be16 n ++ l) 0 = n := u16_bytes h

theorem u16At_right (l m : List Byte) (i : Nat) : u16At (l ++ m) (l.length + i) = u16At m i := by
  unfold u16At
  rw [byteAt_right, Nat.add_assoc, byteAt_right]

/-- Fields of two bytes one behind the other. -/
theorem u16At_flatMap {l : List Nat} (hl : ∀ x ∈ l, x < 65536) {i x : Nat} (h : l[i]? = some x) (m : List Byte) :
    u16At (l.flatMap be16 ++ m) (2 * i) = x := by
  unfold u16At
  have hzero := byteAt_flatMap length_be16 h (j := 0) (by omega) m
  rw [Nat.add_zero] at hzero
  rw [hzero, byteAt_flatMap length_be16 h (by omega)]
  exact u16_bytes (hl x (List.mem_of_getElem? h))

/-- A signed field of two bytes reads back. -/
theorem s16_bytes {T : Int} (hl : -32768 ≤ T) (hg : T ≤ 32767) :
    (if (BitVec.ofInt 16 T).toNat < 32768 then ((BitVec.ofInt 16 T).toNat : Int)
      else ((BitVec.ofInt 16 T).toNat : Int) - 65536) = T := by
  rw [BitVec.toNat_ofInt]
  split <;> omega

/-! ## Bits of a field -/

theorem bitsToNat_append (l : List Bool) (b : Bool) : bitsToNat (l ++ [b]) = 2 * bitsToNat l + b.toNat :=
  List.foldl_append

theorem bitsToNat_lt (l : List Bool) : bitsToNat l < 2 ^ l.length := by
  induction l using List.reverseRecOn with
  | nil => decide
  | append_singleton l b ih =>
    rw [bitsToNat_append, List.length_append, List.length_singleton, Nat.pow_succ]
    have := b.toNat_le
    omega

/-- A bit of a field from its bits, most significant first. -/
theorem testBit_bitsToNat (l : List Bool) (i : Nat) (h : i < l.length) :
    (bitsToNat l).testBit i = l.reverse[i]'(by rw [List.length_reverse]; exact h) := by
  induction l using List.reverseRecOn generalizing i with
  | nil => cases h
  | append_singleton l b ih =>
    rw [bitsToNat_append]
    have hb := b.toNat_le
    cases i with
    | zero => 
      rw [Nat.testBit_zero]
      cases b <;> simp
    | succ i =>
      rw [Nat.testBit_succ, show (2 * bitsToNat l + b.toNat) / 2 = bitsToNat l by omega,
        ih i (by simpa using h)]
      simp

/-! ## The correction record -/

theorem length_head {c : Correction} (hc : c.corrections.length = 8) (hu : c.updates.length = 8) :
    c.head.length = 34 := by
  unfold Correction.head
  rw [List.length_append, List.length_append, length_flatMap_of length_be16, length_flatMap_of length_be16, hc, hu]
  rfl

/-- A formed record is good: the check word completes the sum of the bytes before it (R135). -/
theorem goodCorrection_bytes {c : Correction} (hc : c.corrections.length = 8) (hu : c.updates.length = 8) :
    c.bytes.length = 36 ∧ goodCorrection c.bytes = true := by
  have hhead := length_head hc hu
  have hlength : c.bytes.length = 36 := by
    unfold Correction.bytes
    rw [List.length_append, hhead]
    rfl
  refine ⟨hlength, ?_⟩
  have hcheck : u16At c.bytes 34 = 65535 - byteSum c.head % 65536 := by
    have hplace := u16At_right c.head (be16 (65535 - byteSum c.head % 65536) ++ []) 0
    rw [hhead, u16At_be16 (by omega), List.append_nil] at hplace
    exact hplace
  have hsum : c.bytes.take 34 = c.head := by
    unfold Correction.bytes
    rw [← hhead, List.take_left]
  unfold goodCorrection
  rw [hlength, hcheck, hsum, Bool.and_eq_true]
  refine ⟨rfl, ?_⟩
  rw [beq_iff_eq]
  omega

theorem range_map_eq {l : List Nat} {f : Nat → Nat} {n : Nat} (hl : l.length = n) (h : ∀ i x, l[i]? = some x → f i = x) :
    (List.range n).map f = l := by
  refine List.ext_getElem (by simp [hl]) fun i hi hi' => ?_
  rw [List.getElem_map, List.getElem_range]
  exact h i _ (List.getElem?_eq_getElem hi')

/-- A formed record reads back (R141). -/
theorem readCorrection_bytes {c : Correction} (hc : c.corrections.length = 8) (hu : c.updates.length = 8)
    (hcs : ∀ x ∈ c.corrections, x < 65536) (hus : ∀ x ∈ c.updates, x < 65536) (hs : c.saveCount < 65536) :
    readCorrection c.bytes = c := by
  have hbytes : c.bytes = c.corrections.flatMap be16 ++ (c.updates.flatMap be16 ++
      (be16 c.saveCount ++ be16 (65535 - byteSum c.head % 65536))) := by
    unfold Correction.bytes
    conv_lhs => rw [Correction.head]
    rw [List.append_assoc, List.append_assoc]
    rfl
  have hlength : (c.corrections.flatMap be16).length = 16 := by rw [length_flatMap_of length_be16, hc]
  have hlength' : (c.updates.flatMap be16).length = 16 := by rw [length_flatMap_of length_be16, hu]
  have hcorrections : (List.range 8).map (fun i => u16At c.bytes (2 * i)) = c.corrections :=
    range_map_eq hc fun i x hx => by rw [hbytes, u16At_flatMap hcs hx]
  have hupdates : (List.range 8).map (fun i => u16At c.bytes (16 + 2 * i)) = c.updates :=
    range_map_eq hu fun i x hx => by rw [hbytes, ← hlength, u16At_right, u16At_flatMap hus hx]
  have hsave : u16At c.bytes 32 = c.saveCount := by
    have hplace : u16At c.bytes ((c.corrections.flatMap be16).length + ((c.updates.flatMap be16).length + 0)) =
        c.saveCount := by
      rw [hbytes, u16At_right, u16At_right, u16At_be16 hs]
    rw [hlength, hlength'] at hplace
    exact hplace
  unfold readCorrection
  rw [hcorrections, hupdates, hsave]

/-! ## The payloads -/

theorem announce_payload (start : LocalTime) (image : ImageState) (adjusted defaulted : Bool) (causes : Causes)
    {lane left right revision : Nat} (hlane : lane < 256) (hleft : left < 16) (hright : right < 16)
    (hrevision : revision < 65536) :
    let a := (Body.announce lane left right image adjusted defaulted causes revision).payload start
    a.length = 6 ∧ byteAt a 0 = lane ∧ byteAt a 1 = 16 * left + right ∧
      byteAt a 2 = image.code + 16 * adjusted.toNat + 32 * defaulted.toNat ∧
      byteAt a 3 = causes.power.toNat + 2 * causes.pin.toNat + 4 * causes.command.toNat ∧ u16At a 4 = revision := by
  intro a
  have hcode : image.code < 5 := by cases image <;> decide
  have ha := adjusted.toNat_le
  have hd := defaulted.toNat_le
  refine ⟨rfl, u8_byte hlane, u8_byte (by omega), (u8_byte (by omega)).trans (by omega), ?_, u16_bytes hrevision⟩
  have hbits : bitsToNat [causes.command, causes.pin, causes.power] < 2 ^ 3 := bitsToNat_lt _
  refine (u8_byte (n := bitsToNat [causes.command, causes.pin, causes.power]) (by omega)).trans ?_
  simp only [bitsToNat, List.foldl_cons, List.foldl_nil]
  omega

theorem own_code_cases (own : OwnStatus) {n : Nat}
    (h : own = .absent ∧ n = 0 ∨ own = .starting ∧ n = 1 ∨ own = .valid ∧ n = 2 ∨ own = .hold ∧ n = 3 ∨
      own = .stale ∧ n = 4) : n = own.code := by
  rcases h with ⟨rfl, rfl⟩ | ⟨rfl, rfl⟩ | ⟨rfl, rfl⟩ | ⟨rfl, rfl⟩ | ⟨rfl, rfl⟩ <;> rfl

theorem status_payload (start : LocalTime) (running suspect storeFault defaulted overload adjusted : Bool)
    (own : OwnStatus) {counters : Vector Nat 16} (hcounters : ∀ n : Fin 16, counters[n] < 65536) :
    let a := (Body.status running own suspect storeFault defaulted overload adjusted counters).payload start
    a.length = 38 ∧ byteAt a 0 = (if running then 1 else 2) ∧
      byteAt a 1 = own.code + 8 * suspect.toNat + 16 * storeFault.toNat + 32 * defaulted.toNat + 64 * overload.toNat +
        128 * adjusted.toNat ∧
      65536 * u16At a 2 + u16At a 4 = start.toNat ∧ ∀ n : Fin 16, u16At a (6 + 2 * n) = counters[n] := by
  intro a
  have hcode : own.code < 5 := by cases own <;> decide
  have hbits : bitsToNat [adjusted, overload, defaulted, storeFault, suspect] = suspect.toNat + 2 * storeFault.toNat +
      4 * defaulted.toNat + 8 * overload.toNat + 16 * adjusted.toNat := by
    simp only [bitsToNat, List.foldl_cons, List.foldl_nil]
    omega
  have hlt := bitsToNat_lt [adjusted, overload, defaulted, storeFault, suspect]
  have ha : a = (be8 (if running then 1 else 2) ++
      be8 (8 * bitsToNat [adjusted, overload, defaulted, storeFault, suspect] + own.code) ++ be32 start.toNat) ++
      (counters.toList.flatMap be16 ++ []) := by rw [List.append_nil]; rfl
  refine ⟨?_, ?_, ?_, u32_bytes start, fun n => ?_⟩
  · rw [ha, List.append_nil, List.length_append, length_flatMap_of length_be16, Vector.length_toList]
    rfl
  · refine (u8_byte ?_).trans rfl
    split <;> decide
  · refine (u8_byte (n := 8 * bitsToNat [adjusted, overload, defaulted, storeFault, suspect] + own.code) ?_).trans ?_
    · simp only [List.length_cons, List.length_nil] at hlt
      omega
    · rw [hbits]
      omega
  · have hplace := u16At_right (be8 (if running then 1 else 2) ++
      be8 (8 * bitsToNat [adjusted, overload, defaulted, storeFault, suspect] + own.code) ++ be32 start.toNat)
      (counters.toList.flatMap be16 ++ []) (2 * n)
    rw [← ha] at hplace
    refine hplace.trans (u16At_flatMap (fun x hx => ?_) ?_ _)
    · obtain ⟨i, hi, rfl⟩ := Vector.mem_iff_getElem.1 (Vector.mem_toList_iff.1 hx)
      exact hcounters ⟨i, hi⟩
    · simp

/-- The part of a VEHICLE payload before its axles, byte by byte (R86). -/
def recordHead (r : Record) : List Byte :=
  [BitVec.ofNat 8 r.lane, BitVec.ofNat 8 (r.number / 256), BitVec.ofNat 8 r.number,
    BitVec.ofNat 8 (r.firstTime.toNat / 65536 / 256), BitVec.ofNat 8 (r.firstTime.toNat / 65536),
    BitVec.ofNat 8 (r.firstTime.toNat / 256), BitVec.ofNat 8 r.firstTime.toNat, BitVec.ofNat 8 r.axles.length,
    BitVec.ofNat 8 r.classCode, BitVec.ofNat 8 r.verdict.code, BitVec.ofNat 8 (r.flags.word / 256),
    BitVec.ofNat 8 r.flags.word, BitVec.ofNat 8 (r.meanSpeed / 65536), BitVec.ofNat 8 (r.meanSpeed / 256),
    BitVec.ofNat 8 r.meanSpeed, BitVec.ofNat 8 (r.gross / 65536), BitVec.ofNat 8 (r.gross / 256), BitVec.ofNat 8 r.gross,
    BitVec.ofNat 8 (r.wheelbase / 65536), BitVec.ofNat 8 (r.wheelbase / 256), BitVec.ofNat 8 r.wheelbase,
    BitVec.ofNat 8 ((BitVec.ofInt 16 r.temp).toNat / 256), BitVec.ofNat 8 (BitVec.ofInt 16 r.temp).toNat,
    BitVec.ofNat 8 (16 * r.source.code + r.band.val), BitVec.ofNat 8 (r.correction / 256), BitVec.ofNat 8 r.correction]

/-- The entry of an axle in a VEHICLE payload (R87). -/
def axleBytes (a : RecordAxle) : List Byte := be16 a.load ++ be8 a.pattern

theorem record_payload (r : Record) :
    r.payload = recordHead r ++ (r.axles.flatMap axleBytes ++ (r.spacings.flatMap be16 ++ [])) := by
  unfold Record.payload recordHead axleBytes beS16
  simp only [be8, be16_eq, be24_eq, be32_eq, List.cons_append, List.nil_append, List.append_nil]

theorem length_axleBytes (a : RecordAxle) : (axleBytes a).length = 3 := rfl

theorem record_length (r : Record) : r.payload.length = 26 + 3 * r.axles.length + 2 * r.spacings.length := by
  rw [record_payload, List.append_nil, List.length_append, List.length_append, length_flatMap_of length_axleBytes,
    length_flatMap_of length_be16, ← Nat.add_assoc]
  rfl

/-- The entry of an axle: its load, and its pattern bits from left present to straddled (R87). -/
theorem record_axle {r : Record} {i : Nat} {x : RecordAxle} (h : r.axles[i]? = some x) (hload : x.load < 65536) :
    u16At r.payload (26 + 3 * i) = x.load ∧ byteAt r.payload (28 + 3 * i) =
      32 * x.left.toNat + 16 * x.right.toNat + 8 * x.reverse.toNat + 4 * x.saturated.toNat + 2 * x.mismatch.toNat +
        x.straddled.toNat := by
  have hplace (j : Nat) (hj : j < 3) : byteAt r.payload (26 + (3 * i + j)) = byteAt (axleBytes x) j := by
    have hright := byteAt_right (recordHead r) (r.axles.flatMap axleBytes ++ (r.spacings.flatMap be16 ++ [])) (3 * i + j)
    rw [record_payload]
    exact hright.trans (byteAt_flatMap length_axleBytes h hj _)
  refine ⟨?_, ?_⟩
  · unfold u16At
    have hzero := hplace 0 (by omega)
    rw [Nat.add_zero] at hzero
    rw [hzero, Nat.add_assoc, hplace 1 (by omega)]
    exact u16_bytes hload
  · rw [show 28 + 3 * i = 26 + (3 * i + 2) by omega, hplace 2 (by omega)]
    have hbits : x.pattern < 2 ^ 6 := bitsToNat_lt _
    refine (u8_byte (n := x.pattern) (by omega)).trans ?_
    simp only [RecordAxle.pattern, bitsToNat, List.foldl_cons, List.foldl_nil]
    omega

theorem record_spacing {r : Record} {i x : Nat} (hr : ∀ x ∈ r.spacings, x < 65536) (h : r.spacings[i]? = some x) :
    u16At r.payload (26 + 3 * r.axles.length + 2 * i) = x := by
  have hlength : (recordHead r ++ r.axles.flatMap axleBytes).length = 26 + 3 * r.axles.length := by
    rw [List.length_append, length_flatMap_of length_axleBytes]
    rfl
  have hplace := u16At_right (recordHead r ++ r.axles.flatMap axleBytes) (r.spacings.flatMap be16 ++ []) (2 * i)
  rw [hlength, List.append_assoc, ← record_payload] at hplace
  exact hplace.trans (u16At_flatMap hr h _)

/-- A bit of a field, counted from its most significant. -/
theorem testBit_bitsToNat_rev (l : List Bool) (i : Nat) (h : i < l.length) :
    (bitsToNat l).testBit (l.length - 1 - i) = l[i] := by
  rw [testBit_bitsToNat l _ (by omega), List.getElem_reverse]
  congr 1
  omega

/-- The flag word holds the sixteen flags from bit 15 on (R83). -/
theorem flags_word (f : Flags) (i : Fin 16) : f.word.testBit (15 - i) = [f.incomplete, f.mismatch, f.saturated, f.truncated,
    f.continuation, f.unsteady, f.wrongWay, f.straddle, f.edgeUnmatched, f.partnerLost, f.tempHeld, f.tempDefault,
    f.lateTrigger, f.triggerLost, f.singleTrack, f.correctionDefault][i] :=
  testBit_bitsToNat_rev [f.incomplete, f.mismatch, f.saturated, f.truncated, f.continuation, f.unsteady, f.wrongWay,
    f.straddle, f.edgeUnmatched, f.partnerLost, f.tempHeld, f.tempDefault, f.lateTrigger, f.triggerLost, f.singleTrack,
    f.correctionDefault] i i.isLt

theorem flags_word_lt (f : Flags) : f.word < 65536 := by
  have hlt : f.word < 2 ^ 16 := bitsToNat_lt _
  omega

theorem byteAt_record {r : Record} {i : Nat} (h : i < 26) : byteAt r.payload i = byteAt (recordHead r) i := by
  rw [record_payload, byteAt_left]
  exact h

theorem u16At_record {r : Record} {i : Nat} (h : i < 25) : u16At r.payload i = u16At (recordHead r) i := by
  unfold u16At
  rw [byteAt_record (by omega), byteAt_record (by omega)]

theorem u24At_record {r : Record} {i : Nat} (h : i < 24) : u24At r.payload i = u24At (recordHead r) i := by
  unfold u24At
  rw [u16At_record (by omega), byteAt_record (by omega)]

/-! ## The payloads that stations take -/

theorem marks_readBack (saturated mismatch : Bool) :
    markSaturated (BitVec.ofNat 8 (marksByte saturated mismatch)).toNat = saturated ∧
      markMismatch (BitVec.ofNat 8 (marksByte saturated mismatch)).toNat = mismatch := by
  cases saturated <;> cases mismatch <;> decide

theorem halfAxle_readsBack {start event : LocalTime} {speed load index number : Nat} (hage : (start - event).toNat < 65536)
    (hspeed : speed < 2 ^ 24) (hload : load < 65536) (hindex : index < 256) (hnumber : number < 65536) (side : Half)
    (saturated mismatch : Bool) :
    halfAxleFields ((Body.halfAxle side event speed load index number saturated mismatch).payload start) =
      { side := some side, age := (start - event).toNat, speed := speed, load := load, index := index
        vehicle := number, saturated := saturated, mismatch := mismatch } := by
  obtain ⟨hs, hm⟩ := marks_readBack saturated mismatch
  refine HalfAxleFields.mk.injEq .. |>.mpr ⟨?_, u16_bytes hage, u24_bytes hspeed, u16_bytes hload, u8_byte hindex,
    u16_bytes hnumber, hs, hm⟩
  cases side <;> rfl

theorem transferLoad_readsBack {o : Option Nat} (h : ∀ x, o = some x → x < 65535) :
    o.getD Config.absentLoad < 65536 ∧ transferLoad (o.getD Config.absentLoad) = o := by
  cases o with
  | none => exact ⟨by decide, rfl⟩
  | some x =>
    have hx : x < 65535 := h x rfl
    exact ⟨Nat.lt_succ_of_lt hx, if_neg (Nat.ne_of_lt hx)⟩

theorem transfer_readsBack {start event : LocalTime} {speed index number owner : Nat} {left right : Option Nat}
    (howner : owner < 256) (hnumber : number < 65536) (hage : (start - event).toNat < 65536) (hspeed : speed < 2 ^ 24)
    (hleft : ∀ x, left = some x → x < 65535) (hright : ∀ x, right = some x → x < 65535) (hindex : index < 256)
    (saturated mismatch : Bool) :
    transferFields ((Body.transfer owner number event speed left right index saturated mismatch).payload start) =
      { owner := owner, vehicle := number, age := (start - event).toNat, speed := speed, left := left
        right := right, index := index, saturated := saturated, mismatch := mismatch } := by
  obtain ⟨hs, hm⟩ := marks_readBack saturated mismatch
  obtain ⟨hl, hleft⟩ := transferLoad_readsBack hleft
  obtain ⟨hr, hright⟩ := transferLoad_readsBack hright
  exact TransferFields.mk.injEq .. |>.mpr ⟨u8_byte howner, u16_bytes hnumber, u16_bytes hage, u24_bytes hspeed,
    (congrArg transferLoad (u16_bytes hl)).trans hleft, (congrArg transferLoad (u16_bytes hr)).trans hright,
    u8_byte hindex, hs, hm⟩

theorem yieldClosed_readsBack {owner number forwarded : Nat} (howner : owner < 256) (hnumber : number < 65536)
    (hforwarded : forwarded < 256) (start : LocalTime) :
    yieldFields ((Body.yieldClosed owner number forwarded).payload start) =
      { owner := owner, vehicle := number, forwarded := forwarded } :=
  YieldFields.mk.injEq .. |>.mpr ⟨u8_byte howner, u16_bytes hnumber, u8_byte hforwarded⟩

theorem temperature_readsBack {T : Int} (hl : -32768 ≤ T) (hg : T ≤ 32767) (start : LocalTime) :
    temperatureValue ((Body.temperature T).payload start) = T := by
  have hu : u16At ((Body.temperature T).payload start) 0 = (BitVec.ofInt 16 T).toNat := u16_bytes (BitVec.isLt _)
  unfold temperatureValue s16At
  rw [hu]
  exact s16_bytes hl hg

/-- Settles O53: each record and payload by its own lemma. -/
theorem recordsAndPayloadsReadBack : Obligations.RecordsAndPayloadsReadBack := by
  refine ⟨fun c hc hu hcs hus hs => ?record, by decide, by decide, fun start lane left right revision image adjusted defaulted
    causes hlane hleft hright hrevision => ?announce, fun start running suspect storeFault defaulted overload adjusted own
    counters hcounters => ?status, fun start r hlane hnumber haxles hclass hspeed hgross hwheel htl htg hcorr hloads hspac =>
    ?vehicle, fun start event speed load index number owner forwarded left right side saturated mismatch T hspeed hload hindex
    hnumber howner hforwarded hleft hright hTl hTg hage => ?taken⟩
  case record =>
    obtain ⟨hlength, hgood⟩ := goodCorrection_bytes hc hu
    exact ⟨hlength, hgood, readCorrection_bytes hc hu hcs hus hs⟩
  case announce =>
    intro a
    obtain ⟨hlength, h0, h1, h2, h3, h4⟩ := announce_payload start image adjusted defaulted causes hlane hleft hright hrevision
    refine ⟨hlength, h0, h1, fun n hn => ?_, h3, h4⟩
    have hcode : n = image.code := by
      rcases hn with ⟨rfl, rfl⟩ | ⟨rfl, rfl⟩ | ⟨rfl, rfl⟩ | ⟨rfl, rfl⟩ | ⟨rfl, rfl⟩ <;> rfl
    rw [hcode]
    exact h2
  case status =>
    intro a
    obtain ⟨hlength, h0, h1, h2, hc⟩ :=
      status_payload start running suspect storeFault defaulted overload adjusted own hcounters
    refine ⟨hlength, h0, fun n hn => ?_, h2, hc⟩
    rw [own_code_cases own hn]
    exact h1
  case vehicle =>
    intro a f n
    have h8 {i : Nat} (h : i < 26) : byteAt a i = byteAt (recordHead r) i := byteAt_record h
    have h16 {i : Nat} (h : i < 25) : u16At a i = u16At (recordHead r) i := u16At_record h
    have h24 {i : Nat} (h : i < 24) : u24At a i = u24At (recordHead r) i := u24At_record h
    have hverdict : r.verdict.code < 5 := by cases r.verdict <;> decide
    have hsource : r.source.code < 5 := by cases r.source <;> decide
    have hband := r.band.isLt
    refine ⟨record_length r, (h8 (by decide)).trans (u8_byte hlane), (h16 (by decide)).trans (u16_bytes hnumber), ?_,
      (h8 (by decide)).trans (u8_byte haxles), (h8 (by decide)).trans (u8_byte hclass), fun c hc => ?_, fun i => ?_,
      (h24 (by decide)).trans (u24_bytes hspeed), (h24 (by decide)).trans (u24_bytes hgross),
      (h24 (by decide)).trans (u24_bytes hwheel), ?_, fun c hc => ?_, (h16 (by decide)).trans (u16_bytes hcorr),
      fun i x hx => record_axle hx (hloads x (List.mem_of_getElem? hx)), fun i x hx => record_spacing hspac hx⟩
    · rw [h16 (by decide), h16 (by decide)]
      exact u32_bytes r.firstTime
    · have hcode : c = r.verdict.code := by
        rcases hc with ⟨h, rfl⟩ | ⟨h, rfl⟩ | ⟨h, rfl⟩ | ⟨h, rfl⟩ | ⟨h, rfl⟩ <;> rw [h] <;> rfl
      rw [hcode, h8 (by decide)]
      exact u8_byte (by omega)
    · rw [show u16At a 10 = f.word from (h16 (by decide)).trans (u16_bytes (flags_word_lt f))]
      exact flags_word f i
    · have hu : u16At a 21 = (BitVec.ofInt 16 r.temp).toNat := (h16 (by decide)).trans (u16_bytes (BitVec.isLt _))
      unfold s16At
      rw [hu]
      exact s16_bytes htl htg
    · have hcode : c = r.source.code := by
        rcases hc with ⟨h, rfl⟩ | ⟨h, rfl⟩ | ⟨h, rfl⟩ | ⟨h, rfl⟩ | ⟨h, rfl⟩ <;> rw [h] <;> rfl
      rw [hcode, h8 (by decide)]
      exact u8_byte (by omega)
  case taken =>
    have htime : State.eventTime start (start - event).toNat = event := by
      unfold State.eventTime
      rw [BitVec.ofNat_toNat, BitVec.setWidth_eq]
      exact sub_sub_cancel start event
    exact ⟨halfAxle_readsBack (by omega) hspeed hload hindex hnumber side saturated mismatch,
      transfer_readsBack howner hnumber (by omega) hspeed hleft hright hindex saturated mismatch,
      yieldClosed_readsBack howner hnumber hforwarded start, temperature_readsBack hTl hTg start, htime⟩

end Sys2Proof.Machine.Laws
end

section
/-!
# Frames, characters and the line monitor (chapter 11)

`checkFrame_iff` characterises the frames a receiver takes; `takeCharacter_*` say what a character does in each state of the
receiver.
-/
namespace Sys2Proof.Machine.Laws
open Sys2Proof.Machine.Safety

variable {s t : State}

/-! ## The checks of a frame -/

theorem ofCode_eq_some_iff (n : Nat) (k : Kind) : Kind.ofCode n = some k ↔ n = k.code := by
  constructor
  · intro h
    unfold Kind.ofCode at h
    split at h <;> cases h <;> rfl
  · rintro rfl
    cases k <;> rfl

theorem code_lt (k : Kind) : k.code < 32 := by cases k <;> decide

theorem priority_lt (k : Kind) : k.priority < 8 := by cases k <;> decide

/-- A list of at least four bytes is a header, a source, a length, a payload and a check character. -/
theorem framed_of_length {l : List Byte} (h : 4 ≤ l.length) :
    ∃ header from' length check : Byte, ∃ payload, l = header :: from' :: length :: payload ++ [check] := by
  match l, h with
  | header :: from' :: length :: x :: rest, _ =>
    refine ⟨header, from', length, (x :: rest).getLast (List.cons_ne_nil _ _), (x :: rest).dropLast, ?_⟩
    rw [List.cons_append, List.cons_append, List.cons_append, List.dropLast_append_getLast]

/-- The checks on a frame laid out so (R179). -/
theorem checkFrame_framed (header from' length check : Byte) (payload : List Byte) :
    checkFrame (header :: from' :: length :: payload ++ [check]) =
      (Kind.ofCode (header.toNat % 32)).bind fun k =>
        if length.toNat = payload.length ∧ check.toNat = (crc8 (header :: from' :: length :: payload)).toNat ∧
          header.toNat / 32 = k.priority ∧ k.lengthFits payload = true ∧ from'.toNat ≤ 15
        then some (k, from'.toNat, payload) else none := by
  have hlength : (header :: from' :: length :: payload ++ [check]).length = payload.length + 4 := by
    simp
  have hcheck : byteAt (header :: from' :: length :: payload ++ [check]) (payload.length + 3) = check.toNat := by
    exact byteAt_right (header :: from' :: length :: payload) [check] 0
  have hpayload : ((header :: from' :: length :: payload ++ [check]).drop 3).take payload.length = payload :=
    List.take_left
  unfold checkFrame
  rw [if_neg (by omega), hlength, Nat.add_sub_cancel, show payload.length + 4 - 1 = payload.length + 3 from rfl, hcheck,
    hpayload, List.dropLast_concat]
  simp only [show byteAt (header :: from' :: length :: payload ++ [check]) 0 = header.toNat from rfl,
    show byteAt (header :: from' :: length :: payload ++ [check]) 1 = from'.toNat from rfl,
    show byteAt (header :: from' :: length :: payload ++ [check]) 2 = length.toNat from rfl]
  cases Kind.ofCode (header.toNat % 32) <;> rfl

/-- A receiver takes exactly the frames that pass the checks (R175, R176, R179). -/
theorem checkFrame_iff (l : List Byte) (k : Kind) (source : Nat) (payload : List Byte) :
    checkFrame l = some (k, source, payload) ↔ source ≤ 15 ∧ k.lengthFits payload = true ∧
      ∃ header from' length check : Byte, l = header :: from' :: length :: payload ++ [check] ∧
        header.toNat = 32 * k.priority + k.code ∧ from'.toNat = source ∧ length.toNat = payload.length ∧
        check = crc8 (header :: from' :: length :: payload) := by
  have hcode := code_lt k
  constructor
  · intro h
    have hl : 4 ≤ l.length := by
      by_contra hshort
      unfold checkFrame at h
      rw [if_pos (by omega)] at h
      cases h
    obtain ⟨header, from', length, check, payload', rfl⟩ := framed_of_length hl
    rw [checkFrame_framed, Option.bind_eq_some_iff] at h
    obtain ⟨k', hk, h⟩ := h
    split at h
    · rename_i hsound
      obtain ⟨hlength, hcheck, hpriority, hfits, hsource⟩ := hsound
      obtain ⟨rfl, rfl, rfl⟩ : k' = k ∧ from'.toNat = source ∧ payload' = payload := by simpa using h
      rw [ofCode_eq_some_iff] at hk
      exact ⟨hsource, hfits, header, from', length, check, rfl, by omega, rfl, hlength, BitVec.toNat_inj.1 hcheck⟩
    · cases h
  · rintro ⟨hsource, hfits, header, from', length, check, rfl, hheader, rfl, hlength, rfl⟩
    rw [checkFrame_framed, (ofCode_eq_some_iff _ k).2 (by omega), Option.bind_some]
    exact if_pos ⟨hlength, rfl, by omega, hfits, hsource⟩

/-! ## Formed frames -/

/-- The payload of a body has the length of its kind, and room in the buffer (R175, R178). -/
theorem payload_fits {b : Body} (start : LocalTime) (hr : ∀ r, b = .vehicle r → 1 ≤ r.axles.length ∧ r.axles.length ≤ 12 ∧
    r.spacings.length + 1 = r.axles.length) :
    b.kind.lengthFits (b.payload start) = true ∧ (b.payload start).length ≤ 96 := by
  cases b with
  | vehicle r =>
    obtain ⟨hleast, hgreatest, hspacings⟩ := hr r rfl
    have hlength : ((Body.vehicle r).payload start).length = 24 + 5 * r.axles.length := by
      rw [show (Body.vehicle r).payload start = r.payload from rfl, record_length]
      omega
    have hcount : byteAt ((Body.vehicle r).payload start) 7 = r.axles.length :=
      (byteAt_record (by decide)).trans (u8_byte (by omega))
    refine ⟨?_, by omega⟩
    show (decide (1 ≤ byteAt ((Body.vehicle r).payload start) 7) &&
      decide (byteAt ((Body.vehicle r).payload start) 7 ≤ Config.axleCapacity) &&
        ((Body.vehicle r).payload start).length == 24 + 5 * byteAt ((Body.vehicle r).payload start) 7) = true
    rw [hcount, hlength, Bool.and_eq_true, Bool.and_eq_true, decide_eq_true_eq, decide_eq_true_eq]
    exact ⟨⟨hleast, hgreatest⟩, beq_self_eq_true _⟩
  | status running own suspect storeFault defaulted overload adjusted counters =>
    have hlength : ((Body.status running own suspect storeFault defaulted overload adjusted counters).payload start).length =
        38 := by
      rw [Body.payload, List.length_append, length_flatMap_of length_be16, Vector.length_toList]
      rfl
    exact ⟨beq_iff_eq.2 hlength, by omega⟩
  | announce => exact ⟨rfl, Nat.le_of_ble_eq_true rfl⟩
  | temperature => exact ⟨rfl, Nat.le_of_ble_eq_true rfl⟩
  | halfAxle => exact ⟨rfl, Nat.le_of_ble_eq_true rfl⟩
  | transfer => exact ⟨rfl, Nat.le_of_ble_eq_true rfl⟩
  | yieldClosed => exact ⟨rfl, Nat.le_of_ble_eq_true rfl⟩

theorem frameBytes_eq (source : Nat) (b : Body) (start : LocalTime) :
    ∃ check, frameBytes source b start = BitVec.ofNat 8 b.kind.header :: BitVec.ofNat 8 source ::
      BitVec.ofNat 8 (b.payload start).length :: (b.payload start ++ [check]) ∧
      check = crc8 (BitVec.ofNat 8 b.kind.header :: BitVec.ofNat 8 source ::
        BitVec.ofNat 8 (b.payload start).length :: b.payload start) := ⟨_, rfl, rfl⟩

theorem markFrame_data (l : List Byte) : (markFrame l).map Character.data = l := by
  cases l with
  | nil => rfl
  | cons x l =>
    unfold markFrame
    rw [List.map_cons, List.map_map]
    exact congrArg (x :: ·) (List.map_id l)

/-- The header carries mark 1, every character after it mark 0 (R175). -/
theorem markFrame_mark (x : Byte) (l : List Byte) :
    (markFrame (x :: l)).map Character.mark = true :: List.replicate l.length false := by
  unfold markFrame
  rw [List.map_cons, List.map_map]
  exact congrArg (true :: ·) List.map_const'

/-! ## Characters -/

theorem takeCharacter_starts {mark noise : Bool} (data : Byte) (stamp : LocalTime) (hr : s.link.receiver = .ready)
    (hm : mark = true) : s.takeCharacter mark data true noise stamp = s.startFrame data noise stamp := by
  unfold State.takeCharacter
  simp only [hr, hm, Bool.and_self, if_true]

/-- A character with mark 0 breaks no frame that has room, nor as a length up to 96 (R178). -/
theorem breaksFrame_iff (mark : Bool) (data : Byte) (s : State) : s.breaksFrame mark data = true ↔
    mark = true ∨ s.link.buffer.length = 2 ∧ 96 < data.toNat ∨ 100 ≤ s.link.buffer.length := by
  unfold State.breaksFrame
  rw [Bool.or_eq_true, Bool.or_eq_true, Bool.and_eq_true, beq_iff_eq, decide_eq_true_eq, decide_eq_true_eq, or_assoc]

theorem takeCharacter_joins {data : Byte} (noise : Bool) (stamp : LocalTime) (hr : s.link.receiver = .inFrame)
    (hroom : s.link.buffer.length < 100) (hlength : s.link.buffer.length = 2 → data.toNat ≤ 96) :
    s.takeCharacter false data true noise stamp = s.joinBuffer data noise := by
  have hkeeps : s.breaksFrame false data = false := by
    rw [Bool.eq_false_iff, ne_eq, breaksFrame_iff]
    rintro (h | ⟨h, hbig⟩ | h)
    · cases h
    · exact absurd (hlength h) (not_le.2 hbig)
    · omega
  unfold State.takeCharacter
  simp only [hr, hkeeps, Bool.not_true, Bool.or_false, Bool.false_eq_true, if_false]

/-- The state with these characters in the buffer, taken cleanly. -/
def withBuffer (l : List Byte) (s : State) : State := { s with link := { s.link with buffer := l, bufferNoise := false } }

/-- Clean characters behind the length join the buffer one after the other (R178). -/
theorem takeCharacter_fold (stamp : LocalTime) (rest : List Byte) : ∀ l : List Byte, s.link.receiver = .inFrame →
    3 ≤ l.length → l.length + rest.length ≤ 100 →
    rest.foldl (fun t b => t.takeCharacter false b true false stamp) (withBuffer l s) = withBuffer (l ++ rest) s := by
  induction rest with
  | nil =>
    intro l hr hthree hroom
    rw [List.append_nil]
    rfl
  | cons b rest ih =>
    intro l hr hthree hroom
    rw [List.length_cons] at hroom
    have hjoined : (withBuffer l s).takeCharacter false b true false stamp = withBuffer (l ++ [b]) s :=
      takeCharacter_joins (s := withBuffer l s) false stamp hr (by show l.length < 100; omega)
        fun h => absurd (show l.length = 2 from h) (by omega)
    rw [List.foldl_cons, hjoined, ih (l ++ [b]) hr (by simp; omega) (by simp; omega), List.append_assoc]
    rfl

/-- A READY receiver takes the characters of a frame with a payload of at most 96 bytes (R178). -/
theorem takeCharacter_frame {header from' length : Byte} {rest : List Byte} (stamp : LocalTime)
    (hr : s.link.receiver = .ready) (hlength : length.toNat ≤ 96) (hroom : rest.length ≤ 97) :
    (markFrame (header :: from' :: length :: rest)).foldl
        (fun t c => t.takeCharacter c.mark c.data true false stamp) s =
      { s with link := { s.link with
        receiver := .inFrame, buffer := header :: from' :: length :: rest, bufferStamp := stamp, bufferNoise := false
        bufferOwn := s.ownAttempt, ownSent := false } } := by
  have hstart : s.takeCharacter true header true false stamp = s.startFrame header false stamp :=
    takeCharacter_starts header stamp hr rfl
  have hsource : (s.startFrame header false stamp).takeCharacter false from' true false stamp =
      (s.startFrame header false stamp).joinBuffer from' false :=
    takeCharacter_joins false stamp rfl (by show 1 < 100; decide) fun h => absurd (show 1 = 2 from h) (by decide)
  have hthird : ((s.startFrame header false stamp).joinBuffer from' false).takeCharacter false length true false stamp =
      ((s.startFrame header false stamp).joinBuffer from' false).joinBuffer length false :=
    takeCharacter_joins false stamp rfl (by show 2 < 100; decide) fun _ => hlength
  have hbehind := takeCharacter_fold (s := s.startFrame header false stamp) stamp rest [header, from', length] rfl
    (le_refl 3) (by simp only [List.length_cons, List.length_nil]; omega)
  unfold markFrame
  rw [List.foldl_cons, List.foldl_map, List.foldl_cons, List.foldl_cons, hstart, hsource, hthird]
  exact hbehind

/-- Settles O54: the checks by `checkFrame_iff`, the reception by `takeCharacter_frame`. -/
theorem formedFrameIsGood : Obligations.FormedFrameIsGood := by
  refine ⟨fun l k source payload => checkFrame_iff l k source payload, fun source b start hsource hr => ?_⟩
  obtain ⟨hfits, hlength⟩ := payload_fits start hr
  obtain ⟨check, hbytes, hcheck⟩ := frameBytes_eq source b start
  have hcode := code_lt b.kind
  have hpriority := priority_lt b.kind
  have hheader : b.kind.header < 256 := by
    unfold Kind.header
    omega
  refine ⟨(checkFrame_iff _ _ _ _).2 ⟨hsource, hfits, _, _, _, check, hbytes, u8_byte hheader, u8_byte (by omega),
    u8_byte (by omega), hcheck⟩, markFrame_data _, ?_, fun s stamp hready => ?_⟩
  · unfold frameCharacters
    rw [hbytes, markFrame_mark, List.length_cons, List.length_cons, List.length_append, List.length_singleton]
    exact congrArg (fun n => true :: List.replicate n false) (by omega)
  · unfold frameCharacters
    rw [hbytes]
    exact takeCharacter_frame stamp hready ((u8_byte (by omega)).trans_le hlength) (by simp; omega)

/-! ## The line monitor -/

theorem enterIdle_hunt (hr : s.link.receiver = .hunt) :
    s.enterIdle = { s with link := { s.link with monitor := .idle } }.readyReceiver := by
  unfold State.enterIdle
  simp only [hr]

theorem enterIdle_ready (hr : s.link.receiver = .ready) :
    s.enterIdle = { s with link := { s.link with monitor := .idle } } := by
  unfold State.enterIdle
  simp only [hr]

theorem enterIdle_inFrame (hr : s.link.receiver = .inFrame) :
    s.enterIdle = { s with link := { s.link with monitor := .idle } }.endFrame := by
  unfold State.enterIdle
  simp only [hr]

theorem ownAttempt_iff (s : State) : s.ownAttempt = true ↔
    s.link.transmitter = .arbitrating ∨ s.link.transmitter = .sending ∨ s.link.transmitter = .breaking := by
  unfold State.ownAttempt
  rw [Bool.or_eq_true, Bool.or_eq_true, decide_eq_true_eq, decide_eq_true_eq, decide_eq_true_eq, or_assoc]

/-- A discarded frame is counted outside STARTING (R179). -/
theorem discarded_eq (s : State) : s.countDiscarded = { s with
    counters := if s.control.station = .starting then s.counters else counted 10 s.counters } := by
  rw [countDiscarded_eq]
  split <;> rfl

/-- A reception is cut: a frame in reception counts, unless it is the station's own under attempt (R174, R179). -/
theorem cutReception_eq (s : State) : s.cutReception = { s.hunt with
    counters := if s.link.receiver = .inFrame ∧ ¬ (s.link.bufferOwn = true ∧ s.ownAttempt = true) ∧
        s.control.station ≠ .starting then counted 10 s.counters else s.counters } := by
  unfold State.cutReception
  by_cases hcut : s.link.receiver = .inFrame ∧ ¬ (s.link.bufferOwn = true ∧ s.ownAttempt = true)
  · have hcount : (if s.control.station = .starting then s.counters else counted 10 s.counters) =
        if s.link.receiver = .inFrame ∧ ¬ (s.link.bufferOwn = true ∧ s.ownAttempt = true) ∧
          s.control.station ≠ .starting then counted 10 s.counters else s.counters := by
      by_cases hst : s.control.station = .starting
      · rw [if_pos hst, if_neg fun h => h.2.2 hst]
      · rw [if_neg hst, if_pos ⟨hcut.1, hcut.2, hst⟩]
    rw [if_pos hcut, ← hcount]
    exact discarded_eq s.hunt
  · rw [if_neg hcut, if_neg fun h => hcut ⟨h.1, h.2.1⟩]
    rfl

/-- Settles O55: each row by `monitorIn_iff`, the receiver by `cutReception_eq` and the laws of `enterIdle`. -/
theorem lineMonitorMoves : Obligations.LineMonitorMoves := by
  intro s moved emptied own cut
  have hin {m : Monitor} (hm : s.link.monitor = m) (hh : s.control.held = false) : s.monitorIn m = true :=
    (monitorIn_iff m s).2 ⟨hm, hh⟩
  have hown : (s.link.bufferOwn = true ∧ s.ownAttempt = true) ↔ own := and_congr_right fun _ => ownAttempt_iff s
  have hcut : (if s.link.receiver = .inFrame ∧ ¬ (s.link.bufferOwn = true ∧ s.ownAttempt = true) ∧
      s.control.station ≠ .starting then counted 10 s.counters else s.counters) = cut := by
    show _ = if s.link.receiver = .inFrame ∧ ¬ own ∧ s.control.station ≠ .starting
      then counted 10 s.counters else s.counters
    simp only [hown]
  refine ⟨fun hh => ⟨fun hm => ?_, fun hm hr => ?_, fun hm hr => ?_, fun hm => ?_, fun hm => ?_, fun hm => ?_,
    fun hm hr => ?_⟩, fun hh c hc => ?_⟩
  · exact congrArg Host.Outcome.next (if_pos (hin hm hh))
  · exact congrArg Host.Outcome.next ((if_pos (hin hm hh)).trans (enterIdle_hunt hr))
  · exact congrArg Host.Outcome.next ((if_pos (hin hm hh)).trans (enterIdle_ready hr))
  · refine congrArg Host.Outcome.next ((if_pos (hin hm hh)).trans ((cutReception_eq _).trans ?_))
    rw [← hcut]
    rfl
  · exact congrArg Host.Outcome.next (if_pos (hin hm hh))
  · refine congrArg Host.Outcome.next ((if_pos (hin hm hh)).trans (congrArg (State.bump .lineFaults) (cutReception_eq _) |>.trans ?_))
    rw [← hcut]
    rfl
  · exact congrArg Host.Outcome.next ((if_pos (hin hm hh)).trans (enterIdle_hunt hr))
  · have hout (m : Monitor) : ¬ s.monitorIn m = true := by
      rw [monitorIn_iff, hh]
      exact fun h => Bool.noConfusion h.2
    simp only [List.mem_cons, List.not_mem_nil, or_false] at hc
    rcases hc with rfl | rfl | rfl | rfl | rfl | rfl <;> exact congrArg Host.Outcome.next (if_neg (hout _))

/-! ## A character by the receiver's state -/

/-- The majority of three samples (R172). -/
theorem majority_eq (b : BitSamples) : majority b = decide (2 ≤ b.first.toNat + b.second.toNat + b.third.toNat) := by
  obtain ⟨x, y, z⟩ := b
  cases x <;> cases y <;> cases z <;> rfl

theorem noisyBit_iff (b : BitSamples) : noisyBit b = true ↔ ¬ (b.first = b.second ∧ b.second = b.third) := by
  unfold noisyBit
  rw [Bool.not_eq_true', Bool.eq_false_iff, ne_eq, Bool.and_eq_true, beq_iff_eq, beq_iff_eq]

theorem noisyCharacter_iff (c : LineCharacter) : noisyCharacter c = true ↔
    ∃ b ∈ c.start :: c.mark :: c.stop :: c.data.toList, ¬ (b.first = b.second ∧ b.second = b.third) := by
  have hiff : noisyCharacter c = true ↔ ∃ b ∈ c.start :: c.mark :: c.stop :: c.data.toList, noisyBit b = true := by
    unfold noisyCharacter
    simp only [Bool.or_eq_true, List.any_eq_true, List.mem_cons, exists_eq_or_imp]
    rw [or_assoc, or_assoc, or_left_comm (a := ∃ b ∈ c.data.toList, noisyBit b = true)]
    exact or_congr_right (or_congr_right or_comm)
  rw [hiff]
  exact exists_congr fun b => and_congr_right fun _ => noisyBit_iff b

/-- The data byte of a character has the majorities as its bits, most significant first (R172, R173). -/
theorem characterByte_eq {c : LineCharacter} {data : Byte} (h : ∀ i : Fin 8, data.getMsbD i = majority c.data[i]) :
    characterByte c = data := by
  refine BitVec.eq_of_getMsbD_eq fun i hi => ?_
  have hbits : (c.data.toList.map majority).length = 8 := by simp
  have hbit : (bitsToNat (c.data.toList.map majority)).testBit (8 - 1 - i) = majority c.data[i] := by
    have hrev := testBit_bitsToNat_rev (c.data.toList.map majority) i (by rw [hbits]; exact hi)
    simpa using hrev
  rw [h ⟨i, hi⟩]
  unfold characterByte
  rw [BitVec.getMsbD_eq_getLsbD, BitVec.getLsbD_ofNat, hbit]
  simp [hi]
  omega

theorem takeCharacter_refused {mark stopHigh noise : Bool} {data : Byte} (stamp : LocalTime)
    (hr : s.link.receiver = .ready ∧ (mark = false ∨ stopHigh = false) ∨
      s.link.receiver = .inFrame ∧ (stopHigh = false ∨ s.breaksFrame mark data = true)) :
    s.takeCharacter mark data stopHigh noise stamp = s.refuseCharacter := by
  unfold State.takeCharacter
  rcases hr with ⟨hr, hm | hm⟩ | ⟨hr, hm | hm⟩ <;> simp [hr, hm]

theorem refusesOwn_ready (hr : s.link.receiver = .ready) : s.refusesOwn = true ↔ s.link.transmitter = .breaking := by
  unfold State.refusesOwn
  simp only [hr, decide_eq_true_eq]

theorem refusesOwn_inFrame (hr : s.link.receiver = .inFrame) : s.refusesOwn = true ↔
    s.link.bufferOwn = true ∧ (s.link.transmitter = .sending ∨ s.link.transmitter = .breaking) := by
  unfold State.refusesOwn
  simp only [hr, Bool.and_eq_true, Bool.or_eq_true, decide_eq_true_eq]

/-- Settles O56: the samples by `majority_eq`, the states of the receiver by the laws of `takeCharacter`. -/
theorem characterReceived : Obligations.CharacterReceived := by
  intro s c edgeAge data noise own value mark stopHigh run hunting refused stage spoils
  have hvalue (b : BitSamples) : majority b = value b := majority_eq b
  refine ⟨fun h => ?_, fun hstart hh hown hdata hnoise => ?_⟩
  · refine congrArg Host.Outcome.next (if_pos ?_)
    rw [hvalue, Bool.or_eq_true]
    exact h.symm
  have hrun : run = .next (s.takeCharacter mark data stopHigh noise (s.localTime - BitVec.ofNat 32 edgeAge)) := by
    have hbyte : characterByte c = data := characterByte_eq fun i => by rw [hvalue]; exact hdata i
    have hnoisy : noisyCharacter c = noise := Bool.eq_iff_iff.2 ((noisyCharacter_iff c).trans hnoise.symm)
    have hgoes : ¬ (s.control.held || majority c.start) = true := by
      rw [hvalue, hstart, hh]
      exact Bool.false_ne_true
    refine congrArg Host.Outcome.next ((if_neg hgoes).trans ?_)
    rw [hbyte, hnoisy, hvalue, hvalue]
  have hattempt : s.ownAttempt = own := Bool.eq_iff_iff.2 ((ownAttempt_iff s).trans hown.symm)
  have hrefused : s.hunt.countDiscarded = refused := countDiscarded_eq s.hunt
  have hspoils (h : spoils) : stopHigh = false ∨ s.breaksFrame mark data = true := by
    rw [breaksFrame_iff]
    rcases h with h | h | h | h
    · exact .inr (.inl h)
    · exact .inl h
    · exact .inr (.inr (.inr h.ge))
    · exact .inr (.inr (.inl h))
  refine ⟨fun hr => ?_, fun hr hm hs => ?_, fun hr hbad => ?_, fun hr hm hs hroom hlength => ?_, fun hr hsp hbuf => ?_,
    fun hr hsp hbuf => ?_⟩
  · rw [hrun]
    unfold State.takeCharacter
    simp only [hr]
  · rw [hrun, hs, takeCharacter_starts data _ hr hm, ← hattempt]
    rfl
  · rw [hrun, takeCharacter_refused _ (.inl ⟨hr, hbad⟩), ← hrefused]
    unfold State.refuseCharacter
    simp only [refusesOwn_ready hr]
    rfl
  · rw [hrun, hm, hs, takeCharacter_joins noise _ hr hroom hlength]
    rfl
  · rw [hrun, takeCharacter_refused _ (.inr ⟨hr, hspoils hsp⟩), ← hrefused]
    refine congrArg Host.Outcome.next (if_neg ?_)
    rw [refusesOwn_inFrame hr, hbuf]
    exact fun h => Bool.false_ne_true h.1
  · rw [hrun, takeCharacter_refused _ (.inr ⟨hr, hspoils hsp⟩), ← hrefused]
    unfold State.refuseCharacter
    simp only [refusesOwn_inFrame hr, hbuf, true_and]
    rfl

/-! ## The end of a frame -/

theorem endFrame_bad (h : checkFrame s.link.buffer = none) : s.endFrame = s.readyReceiver.countDiscarded := by
  unfold State.endFrame
  rw [h]

theorem endFrame_good {k : Kind} {source : Nat} {payload : List Byte}
    (h : checkFrame s.link.buffer = some (k, source, payload)) : s.endFrame =
      if s.link.ownSent then s.readyReceiver
      else s.readyReceiver.takeFrame { kind := k, source := source, payload := payload, stamp := s.link.bufferStamp } := by
  unfold State.endFrame
  rw [h]

theorem enterMute_enters {o : Origin} (h : s.control.station = .running ∧ o = .fromRunning ∨
    s.control.station = .halted ∧ o = .fromHalted) : s.enterMute = { s with
      control := { s.control with station := .mute o }
      link := { s.link with transmitter := .mute, transmitQueue := [], driven := [] } } := by
  unfold State.enterMute
  rcases h with ⟨h, rfl⟩ | ⟨h, rfl⟩ <;> simp only [h]

theorem enterMute_stays {o : Origin} (h : s.control.station = .mute o) : s.enterMute = s := by
  unfold State.enterMute
  simp only [h]

/-- Settles O57: the checks by `endFrame_bad` and `endFrame_good`, the rest by the cases of `takeFrame`. -/
theorem goodFrameTaken : Obligations.GoodFrameTaken := by
  intro s run hh hr hrun idle
  have hended : run = .next { s with link := { s.link with monitor := .idle } }.endFrame := by
    rcases hrun with ⟨hm, rfl⟩ | ⟨hm, rfl⟩
    · show Host.Outcome.next (if s.monitorIn .busy then s.enterIdle else s) = _
      rw [if_pos ((monitorIn_iff _ s).2 ⟨hm, hh⟩), enterIdle_inFrame hr]
    · show Host.Outcome.next (if s.monitorIn .lineFault then s.enterIdle else s) = _
      rw [if_pos ((monitorIn_iff _ s).2 ⟨hm, hh⟩), enterIdle_inFrame hr]
  refine ⟨fun hbad => ?_, fun k source payload hgood => ?_⟩
  · rw [hended, endFrame_bad (s := { s with link := { s.link with monitor := .idle } }) hbad, discarded_eq]
    rfl
  · intro frame foreign clash
    have hsent : run = .next (if s.link.ownSent then { s with link := idle }
        else ({ s with link := idle } : State).takeFrame frame) := by
      rw [hended, endFrame_good (s := { s with link := { s.link with monitor := .idle } }) hgood]
      rfl
    have htaken (hs : s.link.ownSent = false) : run = .next (({ s with link := idle } : State).takeFrame frame) := by
      rw [hsent, hs]
      exact congrArg Host.Outcome.next (if_neg Bool.false_ne_true)
    have hours (hc : clash) (hst : s.control.station ≠ .starting) :
        run = .next ({ s with link := idle } : State).enterMute := by
      obtain ⟨hs, hsource, hzero⟩ := hc
      rw [htaken hs]
      exact congrArg Host.Outcome.next ((if_neg hst).trans (if_pos ⟨hsource, fun h => hzero (hsource.trans h)⟩))
    have hforeign (hf : foreign) : run = .next (if 8 ≤ s.link.receiveQueue.length
        then ({ s with link := idle } : State).bump .receiveOverruns
        else { s with link := { idle with receiveQueue := s.link.receiveQueue ++ [frame] } }) := by
      obtain ⟨hs, hst, hsource⟩ := hf
      rw [htaken hs]
      refine congrArg Host.Outcome.next ((if_neg hst).trans (if_neg ?_))
      rintro ⟨h, hzero⟩
      exact hsource.elim (fun hne => hne h) fun h0 => hzero (h.symm.trans h0)
    refine ⟨fun h => ?_, fun hf hroom => ?_, fun hf hfull => ?_, fun o hc ho => ?_, fun o hc ho => ?_⟩
    · rw [hsent]
      refine congrArg Host.Outcome.next ?_
      rcases h with h | h
      · exact if_pos h
      · rw [show ({ s with link := idle } : State).takeFrame frame = { s with link := idle } from if_pos h, ite_self]
    · rw [hforeign hf, if_neg (not_le.2 hroom)]
    · rw [hforeign hf, if_pos hfull.ge]
      rfl
    · have hst : s.control.station ≠ .starting := fun h => by
        rcases ho with ⟨ho, -⟩ | ⟨ho, -⟩ <;> exact Station.noConfusion (h.symm.trans ho)
      rw [hours hc hst, enterMute_enters (s := { s with link := idle }) ho]
    · rw [hours hc fun h => Station.noConfusion (h.symm.trans ho), enterMute_stays (s := { s with link := idle }) ho]

end Sys2Proof.Machine.Laws
end

section
/-!
# Attempts and the transmit queue (chapter 11)

`countDrops_eq` with the laws on `releaseAttempt` and `countFrameError` says what an attempt leaves in the queue;
`queueInsert_between` and `dropNewest_split` say how a new frame enters it.
-/
namespace Sys2Proof.Machine.Laws
open Sys2Proof.Machine.Safety

variable {s t : State} {head : TxFrame} {before after : List TxFrame}

/-! ## Attempts -/

/-- The age of a frame would exceed 65535 (R93). -/
theorem tooAged_iff (start : LocalTime) (f : TxFrame) :
    State.tooAged start f = true ↔ ∃ t, f.body.event = some t ∧ (start - t).toInt > 65535 := by
  unfold State.tooAged
  cases f.body.event with
  | none => simp
  | some t => simp [sdiff]

theorem countDrops_eq (n : Nat) (s : State) : s.countDrops n = { s with
    counters := if n = 0 then s.counters else s.counters.set 12 (min 65535 (s.counters[12] + n)) } := by
  unfold State.countDrops
  split <;> rfl

/-- The bits of a character as the line carries them (R173). -/
theorem bits_eq (c : Character) : c.bits = [false, c.data.getMsbD 0, c.data.getMsbD 1, c.data.getMsbD 2, c.data.getMsbD 3,
    c.data.getMsbD 4, c.data.getMsbD 5, c.data.getMsbD 6, c.data.getMsbD 7, c.mark, true] := rfl

/-- An attempt that begins with a head that has not aged (R93, R182). -/
theorem beginAttempt_head (hq : s.link.transmitQueue = before ++ head :: after)
    (hb : ∀ f ∈ before, State.tooAged s.localTime f = true) (hh : ¬ State.tooAged s.localTime head = true) :
    s.beginAttempt = { s with
      counters := if before.length = 0 then s.counters
        else s.counters.set 12 (min 65535 (s.counters[12] + before.length))
      link := { s.link with
        transmitQueue := { head with attempted := true } :: after, transmitter := .arbitrating
        driven := frameCharacters s.control.number head.body s.localTime, attemptTime := s.localTime
        bufferOwn := false } } := by
  have hdrop : s.link.transmitQueue.dropWhile (State.tooAged s.localTime) = head :: after := by
    rw [hq, List.dropWhile_append_of_pos hb, List.dropWhile_cons_of_neg hh]
  have hcount : s.link.transmitQueue.length - (head :: after).length = before.length := by
    rw [hq, List.length_append, Nat.add_sub_cancel]
  unfold State.beginAttempt
  simp only [hdrop, hcount, countDrops_eq]

/-- An attempt that finds every frame too old (R93, R182). -/
theorem beginAttempt_aged (ha : ∀ f ∈ s.link.transmitQueue, State.tooAged s.localTime f = true) :
    s.beginAttempt = { s with
      counters := if s.link.transmitQueue.length = 0 then s.counters
        else s.counters.set 12 (min 65535 (s.counters[12] + s.link.transmitQueue.length))
      link := { s.link with transmitQueue := [], transmitter := .idle } } := by
  have hdrop : s.link.transmitQueue.dropWhile (State.tooAged s.localTime) = [] := List.dropWhile_eq_nil_iff.2 ha
  unfold State.beginAttempt
  simp only [hdrop, countDrops_eq, List.length_nil, Nat.sub_zero]

theorem attemptMayBegin_iff (onEdge : Bool) (s : State) : s.attemptMayBegin onEdge = true ↔
    s.link.transmitter = .waitIdle ∧ (s.link.monitor = .idle ∨ onEdge = true ∧ s.link.monitor = .busy) := by
  simp [State.attemptMayBegin]

/-- A frame that is not under attempt stays as it is when an attempt ends (R183, R184). -/
theorem releaseAttempt_same {f : TxFrame} (h : f.attempted = false) : State.releaseAttempt f = f := by
  unfold State.releaseAttempt
  rw [← h]

theorem countFrameError_same {f : TxFrame} (h : f.attempted = false) : State.countFrameError f = f :=
  if_neg (by rw [h]; exact Bool.false_ne_true)

theorem map_same {α : Type} {g : α → α} {l : List α} (h : ∀ x ∈ l, g x = x) : l.map g = l :=
  (List.map_congr_left h).trans (List.map_id l)

theorem drivenBits_arbitrating (h : s.link.transmitter = .arbitrating) :
    s.drivenBits = s.link.driven.flatMap Character.bits := by
  unfold State.drivenBits
  simp only [h]

theorem drivenBits_sending (h : s.link.transmitter = .sending) :
    s.drivenBits = s.link.driven.flatMap Character.bits := by
  unfold State.drivenBits
  simp only [h]

/-- The station drives nothing where its transmitter rests (R183, R184, R186). -/
theorem drivenBits_resting (h : s.link.transmitter = .idle ∨ s.link.transmitter = .waitIdle ∨ s.link.transmitter = .mute) :
    s.drivenBits = [] := by
  unfold State.drivenBits
  rcases h with h | h | h <;> simp only [h]

theorem restTransmitter_eq (q : List TxFrame) : State.restTransmitter q = if q = [] then .idle else .waitIdle := by
  cases q <;> rfl

theorem restTransmitter_middle (before : List TxFrame) (f : TxFrame) (after : List TxFrame) :
    State.restTransmitter (before ++ f :: after) = .waitIdle := by
  rw [restTransmitter_eq, if_neg (by simp)]

theorem restTransmitter_rests (q : List TxFrame) : State.restTransmitter q = .idle ∨ State.restTransmitter q = .waitIdle ∨
    State.restTransmitter q = .mute :=
  (restTransmitter_cases q).imp_right .inl

/-- Settles O58: the queue by `beginAttempt_head` and `beginAttempt_aged`, the bits by `bits_eq`. -/
theorem attemptArbitrates : Obligations.AttemptArbitrates := by
  intro s head before after hq hfree aged dropped
  have haged (f : TxFrame) : State.tooAged s.localTime f = true ↔ aged f := tooAged_iff _ _
  refine ⟨fun onEdge hw hm => ⟨fun header bytes hb hh hbytes => ?_, fun ha => ?_⟩, fun hw hm onEdge => ?_, fun ht => ?_,
    fun ht => ?_⟩
  · have hbegins : s.attemptMayBegin onEdge = true := (attemptMayBegin_iff _ _).2 ⟨hw, hm⟩
    have hchars : frameCharacters s.control.number head.body s.localTime =
        { mark := true, data := header } :: bytes.map (fun b => { mark := false, data := b }) := by
      unfold frameCharacters
      rw [hbytes]
      rfl
    have hbegun := beginAttempt_head hq (fun f hf => (haged f).2 (hb f hf)) (mt (haged head).1 hh)
    rw [hchars] at hbegun
    refine ⟨_, congrArg Host.Outcome.next ((if_pos hbegins).trans hbegun), rfl, ?_⟩
    rw [drivenBits_arbitrating rfl]
    rfl
  · have hbegins : s.attemptMayBegin onEdge = true := (attemptMayBegin_iff _ _).2 ⟨hw, hm⟩
    refine congrArg Host.Outcome.next ((if_pos hbegins).trans ((beginAttempt_aged fun f hf => ?_).trans ?_))
    · exact (haged f).2 (ha f (hq ▸ hf))
    · have hlength : s.link.transmitQueue.length = before.length + 1 + after.length := by
        rw [hq, List.length_append, List.length_cons]
        omega
      rw [hlength]
  · refine congrArg Host.Outcome.next (if_neg ?_)
    rw [attemptMayBegin_iff, hm]
    rintro ⟨-, h | ⟨-, h⟩⟩ <;> cases h
  · have hreleased : s.link.transmitQueue.map State.releaseAttempt =
        before ++ { head with attempted := false } :: after := by
      rw [hq, List.map_append, List.map_cons,
        map_same fun f hf => releaseAttempt_same (hfree f (List.mem_append_left _ hf)),
        map_same fun f hf => releaseAttempt_same (hfree f (List.mem_append_right _ hf))]
      rfl
    refine ⟨_, congrArg Host.Outcome.next (if_pos ht), ?_, ?_⟩
    · unfold State.loseArbitration
      simp only [hreleased, restTransmitter_middle]
    · exact drivenBits_resting (restTransmitter_rests _)
  · refine ⟨_, congrArg Host.Outcome.next (if_pos ht), rfl, ?_⟩
    rw [drivenBits_sending rfl, drivenBits_arbitrating ht]

/-- A bit error that is not the fourth in a row begins a break (R184). -/
theorem takeBitError_breaks (h : s.link.consecutiveErrors < 3) : s.takeBitError = { s with
    counters := counted 13 s.counters
    link := { s.link with
      consecutiveErrors := s.link.consecutiveErrors + 1, transmitter := .breaking, driven := [] } } := by
  have hn : min 4 (s.link.consecutiveErrors + 1) = s.link.consecutiveErrors + 1 := by omega
  unfold State.takeBitError
  simp only [hn]
  exact if_neg (by omega)

/-- The fourth bit error in a row puts the station in MUTE (R184, R186). -/
theorem takeBitError_fourth (h : s.link.consecutiveErrors = 3) : s.takeBitError = ({ s with
    counters := counted 13 s.counters, link := { s.link with consecutiveErrors := 4 } } : State).enterMute := by
  have hn : min 4 (s.link.consecutiveErrors + 1) = 4 := by omega
  unfold State.takeBitError
  simp only [hn]
  exact if_pos (le_refl 4)

/-- The queue behind a break: the frame under attempt has one more error (R184). -/
theorem map_countFrameError (hhead : head.attempted = true) (hfree : ∀ f ∈ before ++ after, f.attempted = false) :
    (before ++ head :: after).map State.countFrameError =
      before ++ { head with errors := head.errors + 1, attempted := false } :: after := by
  rw [List.map_append, List.map_cons,
    map_same fun f hf => countFrameError_same (hfree f (List.mem_append_left _ hf)),
    map_same fun f hf => countFrameError_same (hfree f (List.mem_append_right _ hf)),
    show State.countFrameError head = { head with errors := head.errors + 1, attempted := false } from if_pos hhead]

/-- A break ends: what it keeps of the queue, and how many frames it drops (R184). -/
theorem endBreaking_eq {kept : List TxFrame}
    (hk : (s.link.transmitQueue.map State.countFrameError).filter (fun f => f.errors < 3) = kept) :
    s.endBreaking = { s with
      counters := if s.link.transmitQueue.length - kept.length = 0 then s.counters
        else s.counters.set 12 (min 65535 (s.counters[12] + (s.link.transmitQueue.length - kept.length)))
      link := { s.link with
        transmitQueue := kept, transmitter := State.restTransmitter kept, driven := [] } } := by
  unfold State.endBreaking
  simp only [hk, List.length_map, countDrops_eq]

/-- Settles O59: what leaves the queue by the frame under attempt, the bits by the laws of `drivenBits`. -/
theorem attemptEnds : Obligations.AttemptEnds := by
  intro s head before after hq hhead hfree herrors rest resting driving released
  have hquiet : ∀ f ∈ before ++ after, f.attempted = false := fun f hf => (hfree f hf).1
  have hfew : ∀ f ∈ before ++ after, decide (f.errors < 3) = true := fun f hf =>
    decide_eq_true (Nat.lt_succ_of_le (hfree f hf).2)
  have hcounted : s.link.transmitQueue.map State.countFrameError =
      before ++ { head with errors := head.errors + 1, attempted := false } :: after := by
    rw [hq, map_countFrameError hhead hquiet]
  refine ⟨fun hd hless => ?_, fun origin hd hfourth hst => ?_, fun ht hless => ?_, fun ht hthird => ?_, fun noise ht => ?_⟩
  · exact ⟨_, congrArg Host.Outcome.next ((if_pos hd).trans (takeBitError_breaks hless)), rfl, rfl⟩
  · refine ⟨_, congrArg Host.Outcome.next ((if_pos hd).trans ((takeBitError_fourth hfourth).trans (enterMute_enters
      (s := { s with counters := counted 13 s.counters, link := { s.link with consecutiveErrors := 4 } }) hst))), ?_, rfl⟩
    exact drivenBits_resting (.inr (.inr rfl))
  · have hkept : (s.link.transmitQueue.map State.countFrameError).filter (fun f => f.errors < 3) =
        before ++ { head with errors := head.errors + 1, attempted := false } :: after := by
      rw [hcounted]
      refine List.filter_eq_self.2 fun f hf => ?_
      rcases List.mem_append.1 hf with hf | hf
      · exact hfew f (List.mem_append_left _ hf)
      rcases List.mem_cons.1 hf with rfl | hf
      · exact decide_eq_true (Nat.succ_lt_succ hless)
      · exact hfew f (List.mem_append_right _ hf)
    refine ⟨_, congrArg Host.Outcome.next ((if_pos ht).trans (endBreaking_eq hkept)),
      drivenBits_resting (restTransmitter_rests _), ?_⟩
    have hnone : s.link.transmitQueue.length -
        (before ++ { head with errors := head.errors + 1, attempted := false } :: after).length = 0 := by
      rw [hq, List.length_append, List.length_append, List.length_cons, List.length_cons]
      exact Nat.sub_self _
    rw [hnone, restTransmitter_middle]
    rfl
  · have hkept : (s.link.transmitQueue.map State.countFrameError).filter (fun f => f.errors < 3) = rest := by
      rw [hcounted]
      exact filter_split_one (by simp [hthird]) hfew
    refine ⟨_, congrArg Host.Outcome.next ((if_pos ht).trans (endBreaking_eq hkept)),
      drivenBits_resting (restTransmitter_rests _), ?_⟩
    have hone : s.link.transmitQueue.length - rest.length = 1 := by
      rw [hq, List.length_append, List.length_append, List.length_cons]
      omega
    rw [hone, restTransmitter_eq]
    rfl
  · have hkept : s.link.transmitQueue.filter (fun f => !f.attempted) = rest := by
      rw [hq]
      exact filter_split_one (by simp [hhead]) fun f hf => by simp [hquiet f hf]
    have hannounce : s.sendsAnnounce = true ↔ head.body.kind = .announce := by
      unfold State.sendsAnnounce
      rw [hq, List.any_eq_true]
      refine ⟨fun ⟨f, hf, h⟩ => ?_, fun h => ⟨head, by simp, by simp [hhead, h]⟩⟩
      rw [Bool.and_eq_true, decide_eq_true_eq] at h
      by_cases hfh : f = head
      · exact hfh ▸ h.2
      · have hother : f ∈ before ++ after := by
          rcases List.mem_append.1 hf with hf | hf
          · exact List.mem_append_left _ hf
          · exact List.mem_append_right _ ((List.mem_cons.1 hf).resolve_left hfh)
        exact absurd (h.1.symm.trans (hquiet f hother)) (by decide)
    refine ⟨_, congrArg Host.Outcome.next (if_pos ht), ?_, ?_⟩
    · exact drivenBits_resting (restTransmitter_rests _)
    · unfold State.takeSent
      simp only [hkept, hannounce, restTransmitter_eq, Bool.or_eq_true, Bool.and_eq_true]
      rfl

/-! ## The transmit queue -/

theorem enqueue_eq (b : Body) (s : State) : s.enqueue b = { s with
    link := { s.link with
      transmitQueue := (queueTake b s.link.transmitQueue).1
      transmitter := if s.link.transmitter = .idle then .waitIdle else s.link.transmitter }
    counters := if (queueTake b s.link.transmitQueue).2 = true then counted 12 s.counters else s.counters } := by
  have hnonempty : (queueTake b s.link.transmitQueue).1.isEmpty = false := by
    rw [List.isEmpty_eq_false_iff]
    exact queueTake_ne_nil b _
  unfold State.enqueue
  simp only [hnonempty]
  by_cases hd : (queueTake b s.link.transmitQueue).2 = true
  · simp only [if_pos hd]
    cases s.link.transmitter <;> rfl
  · simp only [if_neg hd]
    cases s.link.transmitter <;> rfl

/-- A frame enters an ordered queue behind its class and every higher one, and before every lower one (R187). -/
theorem queueInsert_between (f : TxFrame) {front back : List TxFrame} (hf : ∀ g ∈ front, g.priority ≤ f.priority)
    (hb : ∀ g ∈ back, f.priority < g.priority) : queueInsert f (front ++ back) = front ++ f :: back := by
  have hfront : ∀ g ∈ front, decide (g.priority ≤ f.priority) = true := fun g hg => decide_eq_true (hf g hg)
  unfold queueInsert
  rw [List.takeWhile_append_of_pos hfront, List.dropWhile_append_of_pos hfront]
  cases back with
  | nil => simp
  | cons g back =>
    have hg : ¬ decide (g.priority ≤ f.priority) = true := fun h =>
      absurd (of_decide_eq_true h) (not_le.2 (hb g List.mem_cons_self))
    rw [List.takeWhile_cons_of_neg (p := fun a : TxFrame => decide (a.priority ≤ f.priority)) hg,
      List.dropWhile_cons_of_neg (p := fun a : TxFrame => decide (a.priority ≤ f.priority)) hg, List.append_nil]

/-- An ordered queue has one place for a new frame. -/
theorem ordered_splits (n : Nat) {q : List TxFrame} (hq : q.Pairwise fun f g => f.priority ≤ g.priority) :
    ∃ front back, q = front ++ back ∧ (∀ g ∈ front, g.priority ≤ n) ∧ ∀ g ∈ back, n < g.priority := by
  induction q with
  | nil => exact ⟨[], [], rfl, by simp, by simp⟩
  | cons f q ih =>
    obtain ⟨hf, hq⟩ := List.pairwise_cons.1 hq
    by_cases hle : f.priority ≤ n
    · obtain ⟨front, back, rfl, hfront, hback⟩ := ih hq
      exact ⟨f :: front, back, rfl, List.forall_mem_cons.2 ⟨hle, hfront⟩, hback⟩
    · refine ⟨[], f :: q, rfl, by simp, List.forall_mem_cons.2 ⟨not_le.1 hle, fun g hg => ?_⟩⟩
      exact (not_le.1 hle).trans_le (hf g hg)

theorem le_foldl_max {l : List Nat} {x : Nat} (hx : x ∈ l) (b : Nat) : x ≤ l.foldl max b := by
  induction l generalizing b with
  | nil => cases hx
  | cons y l ih =>
    rcases List.mem_cons.1 hx with rfl | hx
    · have hmono : ∀ (l : List Nat) (c : Nat), c ≤ l.foldl max c := fun l => by
        induction l with
        | nil => exact fun c => le_refl c
        | cons d l ih => exact fun c => (le_max_left c d).trans (ih _)
      exact (le_max_right b x).trans (hmono l _)
    · exact ih hx _

theorem foldl_max_le {l : List Nat} {n b : Nat} (h : ∀ x ∈ l, x ≤ n) (hb : b ≤ n) : l.foldl max b ≤ n := by
  induction l generalizing b with
  | nil => exact hb
  | cons y l ih =>
    exact ih (fun x hx => h x (List.mem_cons_of_mem _ hx)) (max_le hb (h y List.mem_cons_self))

theorem lowestClass_le {q : List TxFrame} {n : Nat} (h : ∀ f ∈ q, f.attempted = true ∨ f.priority ≤ n) :
    lowestClass q ≤ n := by
  refine foldl_max_le (fun x hx => ?_) (Nat.zero_le n)
  obtain ⟨f, hf, rfl⟩ := List.mem_map.1 hx
  obtain ⟨hf, hfree⟩ := List.mem_filter.1 hf
  exact (h f hf).resolve_left fun ha => by simp [ha] at hfree

theorem le_lowestClass {q : List TxFrame} {f : TxFrame} (hf : f ∈ q) (ha : f.attempted = false) :
    f.priority ≤ lowestClass q :=
  le_foldl_max (List.mem_map_of_mem (List.mem_filter.2 ⟨hf, by simp [ha]⟩)) 0

/-- The newest frame of a class that is not under attempt leaves the queue (R188). -/
theorem dropNewest_split {front back : List TxFrame} {f : TxFrame} (ha : f.attempted = false)
    (hb : ∀ g ∈ back, g.attempted = true ∨ g.priority < f.priority) :
    dropNewest f.priority (front ++ f :: back) = front ++ back := by
  have hback : ∀ g ∈ back.reverse, ¬ (!g.attempted && g.priority == f.priority) = true := fun g hg h => by
    rw [Bool.and_eq_true, Bool.not_eq_true', beq_iff_eq] at h
    rcases hb g (List.mem_reverse.1 hg) with hg | hg
    · exact absurd (hg.symm.trans h.1) (by decide)
    · exact absurd h.2 (Nat.ne_of_lt hg)
  unfold dropNewest
  rw [List.reverse_append, List.reverse_cons, List.append_assoc, List.eraseP_append_right _ hback, List.singleton_append,
    List.eraseP_cons_of_pos (by simp [ha]), List.reverse_append, List.reverse_reverse, List.reverse_reverse]

theorem queueTake_absent {b : Body} {q : List TxFrame} (h : b.kind.single = true → ∀ f ∈ q, f.body.kind ≠ b.kind) :
    queueTake b q = queueEnter { body := b, errors := 0, attempted := false } q := by
  unfold queueTake
  by_cases hs : b.kind.single = true
  · have hnone : q.find? (fun g => g.body.kind == b.kind) = none :=
      List.find?_eq_none.2 fun f hf hk => h hs f hf (beq_iff_eq.1 hk)
    simp only [if_pos hs, hnone]
  · exact if_neg hs

/-- A new frame of a single kind finds the one that is queued (R187, R188). -/
theorem queueTake_single {b : Body} {q : List TxFrame} {f : TxFrame} (hs : b.kind.single = true)
    (hf : q.find? (fun g => g.body.kind == b.kind) = some f) : queueTake b q =
      if f.attempted then (q, true)
      else (queueInsert { body := b, errors := 0, attempted := false } (q.filter (fun g => g.body.kind != b.kind)), false) := by
  unfold queueTake
  simp only [if_pos hs, hf]

/-- Settles O60: room, displacement and single kinds by the laws of `queueInsert`, `dropNewest` and `queueTake`. -/
theorem transmitQueueTakesFrame : Obligations.TransmitQueueTakesFrame := by
  refine ⟨fun b s => ⟨enqueue_eq b s, fun h => ?_, fun h => ?_⟩, fun b q hordered => ?_⟩
  · unfold State.produce
    rcases h with h | h <;> simp only [h]
  · unfold State.produce
    rcases h with h | ⟨o, h⟩ <;> simp only [h]
  intro new cls single absent
  have hsingle : b.kind.single = true ↔ single := by
    show _ ↔ b.kind = .announce ∨ b.kind = .status ∨ b.kind = .temperature
    cases b.kind <;> simp [Kind.single]
  have habsent (h : absent) : queueTake b q = queueEnter new q := queueTake_absent fun hs => h (hsingle.1 hs)
  have hinsert (kept : List TxFrame) (hsub : kept.Sublist q) : ∃ front back, kept = front ++ back ∧
      (∀ f ∈ front, cls f ≤ cls new) ∧ (∀ f ∈ back, cls new < cls f) ∧ queueInsert new kept = front ++ new :: back := by
    obtain ⟨front, back, rfl, hfront, hback⟩ := ordered_splits new.priority (hordered.sublist hsub)
    exact ⟨front, back, rfl, hfront, hback, queueInsert_between new hfront hback⟩
  refine ⟨fun before after hq hb ha hroom hno => ?room, fun before victim after hq hfull hno hfree hbelow ha hb => ?displaces,
    fun hfull hno hhigh => ?dropped, fun f hs hf hk hone => ?one⟩
  case room =>
    rw [habsent hno]
    refine (if_pos hroom).trans ?_
    rw [hq, queueInsert_between new hb ha]
  case displaces =>
    have hmem : victim ∈ q := by rw [hq]; simp
    have hlowest : lowestClass q = victim.priority := by
      refine le_antisymm (lowestClass_le fun f hf => ?_) (le_lowestClass hmem hfree)
      rw [hq] at hf
      rcases List.mem_append.1 hf with hf | hf
      · exact hb f hf
      rcases List.mem_cons.1 hf with rfl | hf
      · exact .inr (le_refl _)
      · exact (ha f hf).imp_right Nat.le_of_lt
    have hdrop : dropNewest victim.priority q = before ++ after := by
      rw [hq]
      exact dropNewest_split hfree ha
    obtain ⟨front, back, hsplit, hfront, hback, hinserted⟩ := hinsert (before ++ after) (by
      rw [hq]
      exact List.Sublist.append (List.Sublist.refl _) (List.sublist_cons_self _ _))
    refine ⟨front, back, hsplit, hfront, hback, ?_⟩
    rw [habsent hno]
    refine (if_neg (not_lt.2 hfull.ge)).trans ((if_pos ?_).trans ?_)
    · rw [hlowest]
      exact hbelow
    · rw [hlowest, hdrop, hinserted]
  case dropped =>
    rw [habsent hno]
    exact (if_neg (not_lt.2 hfull.ge)).trans (if_neg (not_lt.2 (lowestClass_le hhigh)))
  case one =>
    have hfound : q.find? (fun g => g.body.kind == b.kind) = some f := by
      have hsome : (q.find? (fun g => g.body.kind == b.kind)).isSome = true :=
        List.find?_isSome.2 ⟨f, hf, beq_iff_eq.2 hk⟩
      obtain ⟨g, hg⟩ := Option.isSome_iff_exists.1 hsome
      have hkind : (g.body.kind == b.kind) = true := List.find?_some (p := fun g : TxFrame => g.body.kind == b.kind) hg
      rw [hg, hone g (List.mem_of_find?_eq_some hg) (beq_iff_eq.1 hkind)]
    have htaken := queueTake_single (hsingle.2 hs) hfound
    refine ⟨fun ha => htaken.trans (if_pos ha), fun ha => ?_⟩
    obtain ⟨front, back, hsplit, hfront, hback, hinserted⟩ :=
      hinsert (q.filter (fun g => g.body.kind != b.kind)) List.filter_sublist
    refine ⟨front, back, hsplit, hfront, hback, ?_⟩
    rw [htaken, if_neg (by rw [ha]; exact Bool.false_ne_true), hinserted]

end Sys2Proof.Machine.Laws
end
